-- ==== Sys2Proof/Word.lean ====
section
/-! DEFINITION. The machine's words (`00_scope.md` R5, R8): unsigned bit vectors of 8 and 16 bits, and the fields
of an instruction word (`30_encoding.md` R64). -/

namespace Sys2Proof

/-- An 8-bit value: a register V0-VF, a timer, a byte of memory (R14, R33, R44). -/
abbrev Byte := BitVec 8

/-- A 16-bit value: an instruction word, `pc`, I, a stack entry (R63, R20, R18, R29). -/
abbrev Word := BitVec 16

/-- A 4-bit field of an instruction word that is not a register number (R64). -/
abbrev Nibble := BitVec 4

/-- A 12-bit address field NNN (R64, R73). -/
abbrev Addr12 := BitVec 12

/-- A register number, the field X or Y (R14, R64). -/
abbrev Reg := Fin 16

/-- A key number of the 16-key latch (R37). -/
abbrev Key := Fin 16

/-- VF, the register that is also the flag (R15). -/
abbrev Reg.F : Reg := 15

/-- V0, the register BNNN adds (R104). -/
abbrev Reg.V0 : Reg := 0

end Sys2Proof
end

