-- ==== Sys2Proof/Syntax.lean ====
section
/-! DEFINITION. The instructions: one constructor for each row of `30_encoding.md` R66 (`spec/opcode_table.json`), and
one for the unrecognized words of `46_unrecognized.md` R131. Every bit of a word that its row leaves free is a field, the
ignored ones too (R68, R69, R74; log 8), so that a word and its instruction determine each other. -/

namespace Sys2Proof

inductive Instr where
  /-- 00E0, clear the framebuffer (R93). `x` is the nibble that `STRICT_DECODE = false` ignores (R68). -/
  | cls (x : Nibble)
  /-- 00EE, return (R97). `x` is the nibble that `STRICT_DECODE = false` ignores (R68). -/
  | ret (x : Nibble)
  /-- 1NNN, jump (R98). -/
  | jp (nnn : Addr12)
  /-- 2NNN, call (R99). -/
  | call (nnn : Addr12)
  /-- 3XNN, skip if V[X] = NN (R100). -/
  | seByte (x : Reg) (nn : Byte)
  /-- 4XNN, skip if V[X] ≠ NN (R101). -/
  | sneByte (x : Reg) (nn : Byte)
  /-- 5XY0, skip if V[X] = V[Y] (R102). `n` is the nibble that `STRICT_DECODE = false` ignores (R69). -/
  | seReg (x y : Reg) (n : Nibble)
  /-- 6XNN, V[X] <- NN (R105). -/
  | ldByte (x : Reg) (nn : Byte)
  /-- 7XNN, V[X] <- V[X] + NN (R106). -/
  | addByte (x : Reg) (nn : Byte)
  /-- 8XY0, V[X] <- V[Y] (R107). -/
  | ldReg (x y : Reg)
  /-- 8XY1, OR (R108). -/
  | orReg (x y : Reg)
  /-- 8XY2, AND (R109). -/
  | andReg (x y : Reg)
  /-- 8XY3, XOR (R110). -/
  | xorReg (x y : Reg)
  /-- 8XY4, add with carry (R111). -/
  | addReg (x y : Reg)
  /-- 8XY5, subtract V[Y] (R112). -/
  | subReg (x y : Reg)
  /-- 8XY6, shift V[X] right; Y is ignored (R113). -/
  | shr (x y : Reg)
  /-- 8XY7, subtract from V[Y] (R114). -/
  | subnReg (x y : Reg)
  /-- 8XYE, shift V[X] left; Y is ignored (R115). -/
  | shl (x y : Reg)
  /-- 9XY0, skip if V[X] ≠ V[Y] (R103). `n` is the nibble that `STRICT_DECODE = false` ignores (R69). -/
  | sneReg (x y : Reg) (n : Nibble)
  /-- ANNN, I <- NNN (R118). -/
  | ldI (nnn : Addr12)
  /-- BNNN, jump to NNN + V0 (R104). -/
  | jpV0 (nnn : Addr12)
  /-- CXNN, V[X] <- r AND NN (R116). -/
  | rnd (x : Reg) (nn : Byte)
  /-- DXYN, draw an N-row sprite (R94). -/
  | drw (x y : Reg) (n : Nibble)
  /-- EX9E, skip if key V[X] is pressed (R123). -/
  | skp (x : Reg)
  /-- EXA1, skip if key V[X] is not pressed (R124). -/
  | sknp (x : Reg)
  /-- FX07, V[X] <- DT (R126). -/
  | ldVxDt (x : Reg)
  /-- FX0A, wait for a key (R127). -/
  | ldVxK (x : Reg)
  /-- FX15, DT <- V[X] (R129). -/
  | ldDtVx (x : Reg)
  /-- FX18, ST <- V[X] (R130). -/
  | ldStVx (x : Reg)
  /-- FX1E, I <- I + V[X] (R119). -/
  | addI (x : Reg)
  /-- FX33, store the decimal digits of V[X] (R120). -/
  | ldB (x : Reg)
  /-- FX55, store V0..V[X] (R121). -/
  | ldMemVx (x : Reg)
  /-- FX65, load V0..V[X] (R122). -/
  | ldVxMem (x : Reg)
  /-- Any other word: no operation (R131). -/
  | dw (w : Word)
  deriving DecidableEq, Repr

end Sys2Proof
end

