-- ==== Sys2Proof/Decode.lean ====
section
/-! DEFINITION. The encoding (`30_encoding.md`): the fields (R64), the opcode table of R66 as data, the two-level
decoder (R67 to R72), which never faults (R83), the byte-level decoder, and the encoder. -/

namespace Sys2Proof

/-! The fields of a word (R64), extracted the same way from every word (R65). -/

def fieldOp (w : Word) : Nibble := w.extractLsb' 12 4
def fieldXBits (w : Word) : Nibble := w.extractLsb' 8 4
def fieldYBits (w : Word) : Nibble := w.extractLsb' 4 4
def fieldN (w : Word) : Nibble := w.extractLsb' 0 4
def fieldNN (w : Word) : Byte := w.extractLsb' 0 8
def fieldNNN (w : Word) : Addr12 := w.extractLsb' 0 12

/-- A 4-bit field read as a register number (R14, R64). -/
def regOfBits (b : Nibble) : Reg := b.toFin

/-- A register number as a 4-bit field. -/
def bitsOfReg (x : Reg) : Nibble := BitVec.ofFin x

def fieldX (w : Word) : Reg := regOfBits (fieldXBits w)
def fieldY (w : Word) : Reg := regOfBits (fieldYBits w)

/-! The layouts of a word (R64's diagram). -/

def wordNNN (op : Nibble) (nnn : Addr12) : Word := op ++ nnn
def wordXNN (op : Nibble) (x : Nibble) (nn : Byte) : Word := op ++ (x ++ nn)
def wordXYN (op : Nibble) (x y : Nibble) (n : Nibble) : Word := op ++ (x ++ (y ++ n))

/-! The decoder: by op, then by a sub-opcode in the groups that multiplex (R67). -/

/-- Group 0 (R68): strict, only 0x00E0 and 0x00EE; not strict, by NN alone. -/
def decodeGroup0 (strict : Bool) (w : Word) : Instr :=
  if fieldXBits w = 0x0 || !strict then
    if fieldNN w = 0xE0 then .cls (fieldXBits w)
    else if fieldNN w = 0xEE then .ret (fieldXBits w)
    else .dw w
  else .dw w

/-- Group 8 selects on N (R70). -/
def decodeGroup8 (w : Word) : Instr :=
  if fieldN w = 0x0 then .ldReg (fieldX w) (fieldY w)
  else if fieldN w = 0x1 then .orReg (fieldX w) (fieldY w)
  else if fieldN w = 0x2 then .andReg (fieldX w) (fieldY w)
  else if fieldN w = 0x3 then .xorReg (fieldX w) (fieldY w)
  else if fieldN w = 0x4 then .addReg (fieldX w) (fieldY w)
  else if fieldN w = 0x5 then .subReg (fieldX w) (fieldY w)
  else if fieldN w = 0x6 then .shr (fieldX w) (fieldY w)
  else if fieldN w = 0x7 then .subnReg (fieldX w) (fieldY w)
  else if fieldN w = 0xE then .shl (fieldX w) (fieldY w)
  else .dw w

/-- Group E selects on NN (R71). -/
def decodeGroupE (w : Word) : Instr :=
  if fieldNN w = 0x9E then .skp (fieldX w)
  else if fieldNN w = 0xA1 then .sknp (fieldX w)
  else .dw w

/-- Group F selects on NN (R72). -/
def decodeGroupF (w : Word) : Instr :=
  if fieldNN w = 0x07 then .ldVxDt (fieldX w)
  else if fieldNN w = 0x0A then .ldVxK (fieldX w)
  else if fieldNN w = 0x15 then .ldDtVx (fieldX w)
  else if fieldNN w = 0x18 then .ldStVx (fieldX w)
  else if fieldNN w = 0x1E then .addI (fieldX w)
  else if fieldNN w = 0x33 then .ldB (fieldX w)
  else if fieldNN w = 0x55 then .ldMemVx (fieldX w)
  else if fieldNN w = 0x65 then .ldVxMem (fieldX w)
  else .dw w

/-- The instruction a word is, under `STRICT_DECODE = strict` (R66 to R72, R83). A word that is no row's is the
unrecognized no-op (R75, R131). -/
def decode (strict : Bool) (w : Word) : Instr :=
  if fieldOp w = 0x0 then decodeGroup0 strict w
  else if fieldOp w = 0x1 then .jp (fieldNNN w)
  else if fieldOp w = 0x2 then .call (fieldNNN w)
  else if fieldOp w = 0x3 then .seByte (fieldX w) (fieldNN w)
  else if fieldOp w = 0x4 then .sneByte (fieldX w) (fieldNN w)
  else if fieldOp w = 0x5 then
    if fieldN w = 0x0 || !strict then .seReg (fieldX w) (fieldY w) (fieldN w) else .dw w
  else if fieldOp w = 0x6 then .ldByte (fieldX w) (fieldNN w)
  else if fieldOp w = 0x7 then .addByte (fieldX w) (fieldNN w)
  else if fieldOp w = 0x8 then decodeGroup8 w
  else if fieldOp w = 0x9 then
    if fieldN w = 0x0 || !strict then .sneReg (fieldX w) (fieldY w) (fieldN w) else .dw w
  else if fieldOp w = 0xA then .ldI (fieldNNN w)
  else if fieldOp w = 0xB then .jpV0 (fieldNNN w)
  else if fieldOp w = 0xC then .rnd (fieldX w) (fieldNN w)
  else if fieldOp w = 0xD then .drw (fieldX w) (fieldY w) (fieldN w)
  else if fieldOp w = 0xE then decodeGroupE w
  else decodeGroupF w

/-- The encoder: an instruction's word, from the patterns of R66. -/
def encode : Instr → Word
  | .cls x => wordXNN 0x0 x 0xE0
  | .ret x => wordXNN 0x0 x 0xEE
  | .jp nnn => wordNNN 0x1 nnn
  | .call nnn => wordNNN 0x2 nnn
  | .seByte x nn => wordXNN 0x3 (bitsOfReg x) nn
  | .sneByte x nn => wordXNN 0x4 (bitsOfReg x) nn
  | .seReg x y n => wordXYN 0x5 (bitsOfReg x) (bitsOfReg y) n
  | .ldByte x nn => wordXNN 0x6 (bitsOfReg x) nn
  | .addByte x nn => wordXNN 0x7 (bitsOfReg x) nn
  | .ldReg x y => wordXYN 0x8 (bitsOfReg x) (bitsOfReg y) 0x0
  | .orReg x y => wordXYN 0x8 (bitsOfReg x) (bitsOfReg y) 0x1
  | .andReg x y => wordXYN 0x8 (bitsOfReg x) (bitsOfReg y) 0x2
  | .xorReg x y => wordXYN 0x8 (bitsOfReg x) (bitsOfReg y) 0x3
  | .addReg x y => wordXYN 0x8 (bitsOfReg x) (bitsOfReg y) 0x4
  | .subReg x y => wordXYN 0x8 (bitsOfReg x) (bitsOfReg y) 0x5
  | .shr x y => wordXYN 0x8 (bitsOfReg x) (bitsOfReg y) 0x6
  | .subnReg x y => wordXYN 0x8 (bitsOfReg x) (bitsOfReg y) 0x7
  | .shl x y => wordXYN 0x8 (bitsOfReg x) (bitsOfReg y) 0xE
  | .sneReg x y n => wordXYN 0x9 (bitsOfReg x) (bitsOfReg y) n
  | .ldI nnn => wordNNN 0xA nnn
  | .jpV0 nnn => wordNNN 0xB nnn
  | .rnd x nn => wordXNN 0xC (bitsOfReg x) nn
  | .drw x y n => wordXYN 0xD (bitsOfReg x) (bitsOfReg y) n
  | .skp x => wordXNN 0xE (bitsOfReg x) 0x9E
  | .sknp x => wordXNN 0xE (bitsOfReg x) 0xA1
  | .ldVxDt x => wordXNN 0xF (bitsOfReg x) 0x07
  | .ldVxK x => wordXNN 0xF (bitsOfReg x) 0x0A
  | .ldDtVx x => wordXNN 0xF (bitsOfReg x) 0x15
  | .ldStVx x => wordXNN 0xF (bitsOfReg x) 0x18
  | .addI x => wordXNN 0xF (bitsOfReg x) 0x1E
  | .ldB x => wordXNN 0xF (bitsOfReg x) 0x33
  | .ldMemVx x => wordXNN 0xF (bitsOfReg x) 0x55
  | .ldVxMem x => wordXNN 0xF (bitsOfReg x) 0x65
  | .dw w => w

/-! Bytes. An instruction is two bytes, the most significant first (`20_memory.md` R45, R63). -/

/-- The word two bytes spell, the byte of the lower address first (R45). -/
def wordOfBytes (hi lo : Byte) : Word := hi ++ lo

/-- The byte of the lower address: bits 15-8 (R45). -/
def highByte (w : Word) : Byte := w.extractLsb' 8 8

/-- The byte of the higher address: bits 7-0 (R45). -/
def lowByte (w : Word) : Byte := w.extractLsb' 0 8

/-- Why a byte sequence is no instruction: no encoding is illegal (R75), so only because it is too short (R63). -/
inductive DecodeError where
  /-- Fewer than two bytes. Raised by `decodeBytes` only; the machine's fetch checks its bound before (R48). Safe. -/
  | truncated
  deriving DecidableEq, Repr

/-- What a byte sequence decodes to: the first instruction and the bytes after it, or why not. -/
inductive Decoded where
  | instr (i : Instr) (rest : List Byte)
  | error (e : DecodeError)
  deriving DecidableEq, Repr

/-- The decoder over bytes, total. -/
def decodeBytes (strict : Bool) : List Byte → Decoded
  | hi :: lo :: rest => .instr (decode strict (wordOfBytes hi lo)) rest
  | _ => .error .truncated

/-- An instruction's two bytes, in memory order (R45). -/
def encodeBytes (i : Instr) : List Byte := [highByte (encode i), lowByte (encode i)]

/-- The host's question about one row of the opcode table, under the default `STRICT_DECODE = true` (log 12): bits
above `nbits` are 0, and the word is laid out as the hardware stores it. -/
def decodeTableWord (nbits w : Nat) : Option Instr :=
  if nbits ≤ 16 then
    let word : Word := BitVec.ofNat 16 (w % 2 ^ nbits)
    match decodeBytes true [highByte word, lowByte word] with
    | .instr i _ => some i
    | .error _ => none
  else none

/-! The opcode table of R66 as data, with the masks of R68 and R69. -/

structure OpcodeRow where
  mnemonic : String
  mask : Word
  maskNonStrict : Word
  pattern : Word
  deriving DecidableEq, Repr

def opcodeTableLow : List OpcodeRow :=
  [ ⟨"CLS", 0xFFFF, 0xF0FF, 0x00E0⟩, ⟨"RET", 0xFFFF, 0xF0FF, 0x00EE⟩, ⟨"JP_addr", 0xF000, 0xF000, 0x1000⟩,
    ⟨"CALL_addr", 0xF000, 0xF000, 0x2000⟩, ⟨"SE_Vx__byte", 0xF000, 0xF000, 0x3000⟩,
    ⟨"SNE_Vx__byte", 0xF000, 0xF000, 0x4000⟩, ⟨"SE_Vx__Vy", 0xF00F, 0xF000, 0x5000⟩,
    ⟨"LD_Vx__byte", 0xF000, 0xF000, 0x6000⟩, ⟨"ADD_Vx__byte", 0xF000, 0xF000, 0x7000⟩,
    ⟨"LD_Vx__Vy", 0xF00F, 0xF00F, 0x8000⟩, ⟨"OR_Vx__Vy", 0xF00F, 0xF00F, 0x8001⟩,
    ⟨"AND_Vx__Vy", 0xF00F, 0xF00F, 0x8002⟩, ⟨"XOR_Vx__Vy", 0xF00F, 0xF00F, 0x8003⟩,
    ⟨"ADD_Vx__Vy", 0xF00F, 0xF00F, 0x8004⟩, ⟨"SUB_Vx__Vy", 0xF00F, 0xF00F, 0x8005⟩,
    ⟨"SHR_Vx", 0xF00F, 0xF00F, 0x8006⟩, ⟨"SUBN_Vx__Vy", 0xF00F, 0xF00F, 0x8007⟩,
    ⟨"SHL_Vx", 0xF00F, 0xF00F, 0x800E⟩ ]

def opcodeTableHigh : List OpcodeRow :=
  [ ⟨"SNE_Vx__Vy", 0xF00F, 0xF000, 0x9000⟩, ⟨"LD_I__addr", 0xF000, 0xF000, 0xA000⟩,
    ⟨"JP_V0__addr", 0xF000, 0xF000, 0xB000⟩, ⟨"RND_Vx__byte", 0xF000, 0xF000, 0xC000⟩,
    ⟨"DRW_Vx__Vy__n", 0xF000, 0xF000, 0xD000⟩, ⟨"SKP_Vx", 0xF0FF, 0xF0FF, 0xE09E⟩,
    ⟨"SKNP_Vx", 0xF0FF, 0xF0FF, 0xE0A1⟩, ⟨"LD_Vx__DT", 0xF0FF, 0xF0FF, 0xF007⟩,
    ⟨"LD_Vx__K", 0xF0FF, 0xF0FF, 0xF00A⟩, ⟨"LD_DT__Vx", 0xF0FF, 0xF0FF, 0xF015⟩,
    ⟨"LD_ST__Vx", 0xF0FF, 0xF0FF, 0xF018⟩, ⟨"ADD_I__Vx", 0xF0FF, 0xF0FF, 0xF01E⟩,
    ⟨"LD_B__Vx", 0xF0FF, 0xF0FF, 0xF033⟩, ⟨"LD__I___Vx", 0xF0FF, 0xF0FF, 0xF055⟩,
    ⟨"LD_Vx___I", 0xF0FF, 0xF0FF, 0xF065⟩ ]

/-- The 33 rows of R66, row number k at position k - 1. -/
def opcodeTable : List OpcodeRow := opcodeTableLow ++ opcodeTableHigh

/-- Whether a word matches a row: (w AND mask) = match (R66). -/
def OpcodeRow.matchesWord (r : OpcodeRow) (strict : Bool) (w : Word) : Bool :=
  (w &&& (if strict then r.mask else r.maskNonStrict)) == r.pattern

/-- The number of an instruction's row in R66; none for an unrecognized word. -/
def Instr.rowNumber : Instr → Option Nat
  | .cls _ => some 1
  | .ret _ => some 2
  | .jp _ => some 3
  | .call _ => some 4
  | .seByte _ _ => some 5
  | .sneByte _ _ => some 6
  | .seReg _ _ _ => some 7
  | .ldByte _ _ => some 8
  | .addByte _ _ => some 9
  | .ldReg _ _ => some 10
  | .orReg _ _ => some 11
  | .andReg _ _ => some 12
  | .xorReg _ _ => some 13
  | .addReg _ _ => some 14
  | .subReg _ _ => some 15
  | .shr _ _ => some 16
  | .subnReg _ _ => some 17
  | .shl _ _ => some 18
  | .sneReg _ _ _ => some 19
  | .ldI _ => some 20
  | .jpV0 _ => some 21
  | .rnd _ _ => some 22
  | .drw _ _ _ => some 23
  | .skp _ => some 24
  | .sknp _ => some 25
  | .ldVxDt _ => some 26
  | .ldVxK _ => some 27
  | .ldDtVx _ => some 28
  | .ldStVx _ => some 29
  | .addI _ => some 30
  | .ldB _ => some 31
  | .ldMemVx _ => some 32
  | .ldVxMem _ => some 33
  | .dw _ => none

end Sys2Proof
end

