-- ==== Sys2Proof/Config.lean ====
section
/-! DEFINITION. The named parameters of `00_scope.md` R6 (decisions D4 to D14) as one record, and the free value that
stands for the random byte of CXNN (`43_alu.md` R117). The record is plain data; State carries it, no step changes it
(log 1). -/

namespace Sys2Proof

/-- The bytes of the address space that differ from what an unlisted address reads as, by rising address
(`20_memory.md` R44). -/
abbrev Machine.Memory := List Host.Cell

/-- `I_WRAP_BITS`: the width at which FX1E wraps (R6, R19, D7). -/
inductive IndexWrap where
  | bits12
  | bits16
  deriving DecidableEq, Repr

/-- The number of bits `I_WRAP_BITS` names. -/
def IndexWrap.bits : IndexWrap → Nat
  | .bits12 => 12
  | .bits16 => 16

/-- `SPRITE_EDGE`: where a sprite bit past the right or bottom edge goes (R6, R95, D8). -/
inductive SpriteEdge where
  | linearWrap
  | clip
  | torusWrap
  deriving DecidableEq, Repr

/-- `FLAG_ORDER`: whether the flag is written in the row's order or last (R6, `43_alu.md`, D10). -/
inductive FlagOrder where
  | asWritten
  | flagLast
  deriving DecidableEq, Repr

/-- `KEY_INDEX_MODE`: what EX9E and EXA1 do with V[X] above 0xF (R6, R125, D12). -/
inductive KeyIndexMode where
  | fault
  | lowNibble
  deriving DecidableEq, Repr

/-- The named parameters (R6). Each legal value is a legal build of the core. -/
structure Config where
  /-- `STACK_DEPTH`, 12..16 (D4). -/
  stackDepth : Nat
  /-- `INIT_V`: V0-VF after `RESET` (D5). -/
  initV : Vector Byte 16
  /-- `INIT_MEM`: memory after `RESET` (D6). -/
  initMem : Machine.Memory
  /-- `I_WRAP_BITS` (D7). -/
  indexWrap : IndexWrap
  /-- `SPRITE_EDGE` (D8). -/
  spriteEdge : SpriteEdge
  /-- `STRICT_DECODE` (D9). -/
  strictDecode : Bool
  /-- `FLAG_ORDER` (D10). -/
  flagOrder : FlagOrder
  /-- `KEY_INDEX_MODE` (D12). -/
  keyIndexMode : KeyIndexMode
  /-- `KEY_CLEAR_AT_FRAME_END` (D13); only the host's frame reads it. -/
  keyClearAtFrameEnd : Bool
  /-- `STEPS_PER_FRAME`, at least 1 (D14); only the host's frame reads it. -/
  stepsPerFrame : Nat
  deriving DecidableEq, Repr

/-- The defaults of R6. DESIGN CHOICE (log 2, log 3): `INIT_V` and `INIT_MEM` have no default in the spec and are zero
here, as in its test vectors. -/
def Config.default : Config where
  stackDepth := 16
  initV := Vector.replicate 16 0
  initMem := []
  indexWrap := .bits16
  spriteEdge := .linearWrap
  strictDecode := true
  flagOrder := .asWritten
  keyIndexMode := .fault
  keyClearAtFrameEnd := true
  stepsPerFrame := 1

/-- The free value of R117: the random byte the n-th CXNN draws when the host has supplied none. Nothing is known of
it, so a claim about a CXNN holds for every byte (DESIGN CHOICE, log 4). -/
opaque Config.freeRandom : Nat → Byte

end Sys2Proof
end

