-- ==== Sys2Proof/Machine/State.lean ====
section
/-! DEFINITION. The machine's state (`10_state.md` R13), its reset value (R41), and the named reasons of the model. -/

namespace Sys2Proof.Machine

/-- The fault kinds of `60_exceptions.md` R133. Kinds 1 to 4 are TAKEN by the step that meets them: it answers a next
state that is `Halted` and holds the fault record (R134, R135), so no step answers `Host.Outcome.fault` (log 5). -/
inductive Fault where
  /-- Code 1. Raised by a fetch with pc + 1 ≥ 4096 (R48) and by DXYN, FX33, FX55, FX65 reaching past 0xFFF (R49).
  Safe: the spec's own fault. -/
  | outOfBounds
  /-- Code 2. Raised by 2NNN on a full stack (R99). Safe: the spec's own fault. -/
  | stackOverflow
  /-- Code 3. Raised by 00EE on an empty stack (R97). Safe: the spec's own fault. -/
  | stackUnderflow
  /-- Code 4. Raised by EX9E and EXA1 with V[X] > 0xF when `KEY_INDEX_MODE = Fault` (R125). Safe: the spec's own. -/
  | keyOutOfRange
  /-- Code 5. Answered by the host operation `LOAD` only (`Reply.loadFault`), with the byte count as info (R133); it then
  changes nothing (R155). Safe: the spec's own. -/
  | programTooLarge
  deriving DecidableEq, Repr

/-- What the model gives no meaning. -/
inductive Refusal where
  /-- An instruction whose arm of `exec` has no meaning yet; no arm answers so now. Safe. -/
  | notModelled (mnemonic : String)
  /-- The host operation `LOAD` with `started = 1`, which the spec refuses (`70_reset_and_hazards.md` R156, D21);
  raised by `HostOps.perform`, by no instruction. Safe. -/
  | loadAfterStart
  deriving DecidableEq, Repr

/-- The run state (R27). -/
inductive RunState where
  | running
  | awaitingKey (x : Reg)
  | halted
  deriving DecidableEq, Repr

/-- The fault record of R28 and R134. Its code is a function of its kind (`Fault.code`, R133). -/
structure FaultRecord where
  kind : Fault
  /-- The address of the instruction that faulted. -/
  pc : Word
  /-- Its word; none for a fetch fault. -/
  word : Option Word
  /-- The address, depth or value of R133's `info` column, a label for the host (D33, log 6). -/
  info : Nat
  deriving DecidableEq, Repr

/-- The framebuffer: 32 rows of 64 pixels, bit x of row y being pixel (x, y) (R34, R35; log 9). -/
abbrev Framebuffer := Vector (BitVec 64) 32

/-- The number of a pixel, y * 64 + x (R35). -/
abbrev Pixel := Fin 2048

/-- The state record of R13, and the model's own `cfg`, `rand` and `draws` (log 1, log 4). -/
structure State where
  /-- Not the spec's state (R42): the parameters of R6, which no operation changes. -/
  cfg : Config
  /-- The address space (R38). -/
  mem : Memory
  /-- V0-VF (R14). -/
  v : Vector Byte 16
  /-- I (R18). -/
  idx : Word
  /-- The program counter (R20). -/
  pc : Word
  /-- The call stack, last element the top (R13, R29). -/
  stack : List Word
  /-- The delay timer DT (R33). -/
  dt : Byte
  /-- The sound timer ST (R33). -/
  st : Byte
  /-- The framebuffer (R34). -/
  fb : Framebuffer
  /-- The key latch, bit k being key k (R37). -/
  key : BitVec 16
  /-- The run state (R27). -/
  run : RunState
  /-- The first fatal error (R28). -/
  fault : Option FaultRecord
  /-- Whether any `STEP` has been performed since `RESET` (R39). -/
  started : Bool
  /-- Not the spec's state (R40): random bytes the host has supplied for coming CXNN, the next one first. -/
  rand : List Byte
  /-- Not the spec's state (R40): how many CXNN have drawn a free byte. -/
  draws : Nat
  deriving DecidableEq, Repr

/-- The state after `RESET` under the parameters `c` (R41, R152). -/
def State.initial (c : Config) : State where
  cfg := c
  mem := c.initMem
  v := c.initV
  idx := 0x0000
  pc := 0x0200
  stack := []
  dt := 0
  st := 0
  fb := Vector.replicate 32 0
  key := 0
  run := .running
  fault := none
  started := false
  rand := []
  draws := 0

/-- The state right after reset, under the spec's default parameters (R6, R41; log 2, log 3, log 7). -/
def State.reset : State := State.initial Config.default

end Sys2Proof.Machine
end

