-- ==== Sys2Proof/Machine/Ops.lean ====
section
/-! DEFINITION. The named operations of `00_scope.md` R9 on memory, registers, the program counter, the call stack and
the framebuffer, and taking a fault (`60_exceptions.md` R134 to R136) with the one way out of it (R140). -/

namespace Sys2Proof.Machine

/-- What one instruction or one step answers. -/
abbrev Result := Host.Outcome State Fault Refusal

/-! ## Memory (`20_memory.md`) -/

/-- The number of addresses (R5, R44). -/
abbrev memSize : Nat := 4096

/-- What an unlisted address reads as. DESIGN CHOICE (log 3): the spec gives no contents after `RESET` (`INIT_MEM`, R41);
zero, as in its test vectors. -/
def unlistedByte : Byte := 0

/-- MemRead(a, 1) (R9, R52). -/
def Memory.read : Memory → Nat → Byte
  | [], _ => unlistedByte
  | (k, c) :: m, a => if k = a then c else Memory.read m a

/-- The memory with no entry for `a`. -/
def Memory.unlist : Memory → Nat → Memory
  | [], _ => []
  | (k, c) :: m, a => if k = a then Memory.unlist m a else (k, c) :: Memory.unlist m a

/-- The memory with an entry for `a` before the first higher address. -/
def Memory.enlist : Memory → Nat → Byte → Memory
  | [], a, b => [(a, b)]
  | (k, c) :: m, a, b => if a < k then (a, b) :: (k, c) :: m else (k, c) :: Memory.enlist m a b

/-- MemWrite(a, 1, b) (R9, R52), in canonical form. -/
def Memory.write (m : Memory) (a : Nat) (b : Byte) : Memory :=
  if b = unlistedByte then Memory.unlist m a else Memory.enlist (Memory.unlist m a) a b

/-- Bytes stored at rising addresses from `a`. -/
def Memory.writeBytes : Memory → Nat → List Byte → Memory
  | m, _, [] => m
  | m, a, b :: bs => Memory.writeBytes (Memory.write m a b) (a + 1) bs

/-- The canonical form from address `lo` on: addresses strictly rising and inside the address space, no entry equal to
what an unlisted address reads as. -/
def Memory.wfFrom : Nat → Memory → Bool
  | _, [] => true
  | lo, (k, c) :: m => decide (lo ≤ k) && decide (k < memSize) && c != unlistedByte && Memory.wfFrom (k + 1) m

/-- The canonical form of a memory. -/
def Memory.wf (m : Memory) : Bool := Memory.wfFrom 0 m

def State.setMem (s : State) (m : Memory) : State := { s with mem := m }

/-- The byte at an address. -/
def State.byteAt (s : State) (a : Nat) : Byte := s.mem.read a

/-- Fetch(pc): the big-endian word at `pc` (R45), at any `pc`, odd or even (R50). -/
def State.fetchWord (s : State) : Word := wordOfBytes (s.byteAt s.pc.toNat) (s.byteAt (s.pc.toNat + 1))

/-- The fetch bound (R48): both bytes of the word at `pc` exist. -/
def State.fetchInRange (s : State) : Bool := decide (s.pc.toNat + 1 < memSize)

/-- A word stored as its two bytes, most significant first (R45). -/
def Memory.writeWord (m : Memory) (a : Nat) (w : Word) : Memory :=
  Memory.writeBytes m a [highByte w, lowByte w]

/-! ## Registers (`10_state.md`) -/

/-- V[x] (R9, R14). -/
def State.reg (s : State) (x : Reg) : Byte := s.v.get x

/-- V[x] <- b (R9, R14): no register is hard-wired. -/
def State.setReg (s : State) (x : Reg) (b : Byte) : State := { s with v := s.v.set x.val b x.isLt }

def State.setIdx (s : State) (a : Word) : State := { s with idx := a }

def State.setDt (s : State) (b : Byte) : State := { s with dt := b }

def State.setSt (s : State) (b : Byte) : State := { s with st := b }

def State.setRun (s : State) (r : RunState) : State := { s with run := r }

/-! ## The program counter (R20 to R23, `40_execution_cycle.md` R86) -/

def State.setPc (s : State) (a : Word) : State := { s with pc := a }

/-- "PC advances": pc <- trunc_16(pc + 2) (R12, R86). -/
def State.advance (s : State) : State := s.setPc (s.pc + 2)

/-- A skip: pc + 4 when the condition holds, else pc + 2, each modulo 2^16 (R86, C5). -/
def State.skipIf (s : State) (c : Bool) : State := s.setPc (if c then s.pc + 4 else s.pc + 2)

/-- `started <- 1`, before anything else a step does (R85). -/
def State.start (s : State) : State := { s with started := true }

/-! ## The call stack (R29 to R32): the last element is the top -/

def State.setStack (s : State) (k : List Word) : State := { s with stack := k }

/-- Whether the stack holds `STACK_DEPTH` entries (R31). -/
def State.stackFull (s : State) : Bool := decide (s.cfg.stackDepth ≤ s.stack.length)

/-- push(v) on a stack that is not full (R31). -/
def State.push (s : State) (w : Word) : State := s.setStack (s.stack ++ [w])

/-- The top entry, if any (R31). -/
def State.top (s : State) : Option Word := s.stack.getLast?

/-- The stack less its top (R31). -/
def State.pop (s : State) : State := s.setStack s.stack.dropLast

/-! ## The framebuffer (R34 to R36) -/

def State.setFb (s : State) (f : Framebuffer) : State := { s with fb := f }

/-- FB[p] (R35). -/
def Framebuffer.pixel (f : Framebuffer) (p : Pixel) : Bool :=
  (f[p.val / 64]'(by omega)).getLsbD (p.val % 64)

/-- FB[p] <- FB[p] XOR 1 (R94). -/
def Framebuffer.toggle (f : Framebuffer) (p : Pixel) : Framebuffer :=
  f.set (p.val / 64) (f[p.val / 64]'(by omega) ^^^ BitVec.twoPow 64 (p.val % 64)) (by omega)

/-- Every pixel 0 (R93). -/
def Framebuffer.dark : Framebuffer := Vector.replicate 32 0

/-! ## The random byte of CXNN (`43_alu.md` R116, R117; log 4) -/

/-- The byte `r`: the host's next one, else a free draw. -/
def State.randomByte (s : State) : Byte :=
  match s.rand with
  | [] => Config.freeRandom s.draws
  | b :: _ => b

/-- The state after that byte is taken: no value of `r` is kept (R90). -/
def State.dropRandom (s : State) : State :=
  match s.rand with
  | [] => { s with draws := s.draws + 1 }
  | _ :: bs => { s with rand := bs }

/-! ## Faults (`60_exceptions.md`) -/

/-- The numeric code of a fault kind (R133, D17). -/
def Fault.code : Fault → Nat
  | .outOfBounds => 1
  | .stackOverflow => 2
  | .stackUnderflow => 3
  | .keyOutOfRange => 4
  | .programTooLarge => 5

/-- The state after a fault: the record is written, the core is halted, nothing else of the instruction happens
(R11, R134, R135, R136). -/
def State.halt (s : State) (k : Fault) (w : Option Word) (info : Nat) : State :=
  { s with fault := some ⟨k, s.pc, w, info⟩, run := .halted }

/-- raise E(info): taking a fault is a next state, the state given being the one before the instruction's writes
(R11, R134). -/
def raise (k : Fault) (w : Option Word) (info : Nat) (s : State) : Result := .next (s.halt k w info)

/-- The lowest address above 0xFFF an access from `a` on would touch (R133, D33). -/
def firstOutside (a : Word) : Nat := max a.toNat 0x1000

/-- `RESET` (R152), in any run state: the only return from a fault (R140). The parameters and the random input are not
the core's state and stay (log 11). -/
def State.hostReset (s : State) : State :=
  { State.initial s.cfg with rand := s.rand, draws := s.draws }

end Sys2Proof.Machine
end

