-- ==== Sys2Proof/Machine/Flags.lean ====
section
/-! DEFINITION. The one flag, VF (`10_state.md` R24), and the order of its write against the result's under
`FLAG_ORDER` (`43_alu.md`, D10). -/

namespace Sys2Proof.Machine

/-- A flag value as a byte. -/
def flagByte (c : Bool) : Byte := if c then 1 else 0

/-- VF <- 1 or 0. -/
def State.setFlag (s : State) (c : Bool) : State := s.setReg Reg.F (flagByte c)

/-- 8XY4: whether the exact sum passes 255 (R111). -/
def carryOfSum (a b : Byte) : Bool := decide (255 < a.toNat + b.toNat)

/-- 8XY5 and 8XY7: strictly greater, as unsigned numbers (R112, R114, C11). -/
def greater (a b : Byte) : Bool := decide (b.toNat < a.toNat)

/-- 8XY6: bit 0 before the shift (R113). -/
def shiftedOutRight (a : Byte) : Bool := a.getLsbD 0

/-- 8XYE: bit 7 before the shift (R115). -/
def shiftedOutLeft (a : Byte) : Bool := a.getLsbD 7

/-- An operation that writes VF first and then computes its result from the registers as they then are
(`FLAG_ORDER = AsWritten`, R112, R113, R115), or reads first and writes VF last (`FlagLast`). `result` computes V[X] from
the registers of the state it is given. -/
def State.flagAndResult (s : State) (x : Reg) (flag : Bool) (result : State → Byte) : State :=
  match s.cfg.flagOrder with
  | .asWritten => (s.setFlag flag).setReg x (result (s.setFlag flag))
  | .flagLast => (s.setReg x (result s)).setFlag flag

end Sys2Proof.Machine
end

