-- ==== Sys2Proof/Machine/Operands.lean ====
section
/-! DEFINITION. The operand forms: the immediate address, the index register with an offset and its bound
(`20_memory.md` R49), the wrapped index sum (R19), the key index (R125), the lowest pressed key (R127), the decimal digits
(R120). -/

namespace Sys2Proof.Machine

/-- zext_16(NNN) (R73). -/
def addrOf (nnn : Addr12) : Word := nnn.setWidth 16

/-- zext_16 of a register value (R8). -/
def zext16 (b : Byte) : Word := b.setWidth 16

/-- The bound of R49: `count` bytes from I on all lie in the address space; the sum is exact. -/
def State.dataInRange (s : State) (count : Nat) : Bool :=
  count == 0 || decide (s.idx.toNat + count ≤ memSize)

/-- A memory instruction: if a byte of its range is outside, OutOfBounds with the first such address and nothing else
(R49, R136); otherwise its effect. `w` is its word. -/
def withDataRange (w : Word) (count : Nat) (s : State) (effect : State) : Result :=
  if s.dataInRange count then .next effect else raise .outOfBounds (some w) (firstOutside s.idx) s

/-- I + V[X] modulo 2^I_WRAP_BITS (R19, R119). -/
def State.indexSum (s : State) (x : Reg) : Word :=
  BitVec.ofNat 16 ((s.idx.toNat + (s.reg x).toNat) % 2 ^ s.cfg.indexWrap.bits)

/-- KEY[k] (R37). -/
def State.keyDown (s : State) (k : Key) : Bool := s.key.getLsbD k.val

/-- KeyIndex(v) (R125); none where it raises KeyOutOfRange. -/
def keyIndex (mode : KeyIndexMode) (b : Byte) : Option Key :=
  if h : b.toNat < 16 then some ⟨b.toNat, h⟩
  else
    match mode with
    | .fault => none
    | .lowNibble => some ⟨b.toNat % 16, Nat.mod_lt _ (by decide)⟩

/-- The lowest-indexed pressed key of a latch, if any (R127, R128, D29). -/
def lowestKey (latch : BitVec 16) : Option Nat := (List.range 16).find? fun k => latch.getLsbD k

/-- The decimal digits of a byte: hundreds, tens, units (R120). -/
def decimalDigits (b : Byte) : List Byte :=
  [BitVec.ofNat 8 (b.toNat / 100), BitVec.ofNat 8 (b.toNat / 10 % 10), BitVec.ofNat 8 (b.toNat % 10)]

/-- The registers V0..VX, in order (R121). -/
def State.regsUpTo (s : State) (x : Reg) : List Byte := s.v.toList.take (x.val + 1)

/-- The register file with V0..VX loaded from memory at I (R122). -/
def State.loadedRegs (s : State) (x : Reg) : Vector Byte 16 :=
  Vector.ofFn fun i : Fin 16 => if i.val ≤ x.val then s.byteAt (s.idx.toNat + i.val) else s.reg i

end Sys2Proof.Machine
end

