-- ==== Sys2Proof/Machine/Alu.lean ====
section
/-! DEFINITION. The register and arithmetic instructions (`43_alu.md`). -/

namespace Sys2Proof.Machine

/-- 6XNN (R105). -/
def execLdByte (x : Reg) (nn : Byte) (s : State) : Result := .next (s.setReg x nn).advance

/-- 7XNN (R106): wraps, and never sets VF. -/
def execAddByte (x : Reg) (nn : Byte) (s : State) : Result := .next (s.setReg x (s.reg x + nn)).advance

/-- 8XY0 (R107). -/
def execLdReg (x y : Reg) (s : State) : Result := .next (s.setReg x (s.reg y)).advance

/-- 8XY1 (R108). -/
def execOrReg (x y : Reg) (s : State) : Result := .next (s.setReg x (s.reg x ||| s.reg y)).advance

/-- 8XY2 (R109). -/
def execAndReg (x y : Reg) (s : State) : Result := .next (s.setReg x (s.reg x &&& s.reg y)).advance

/-- 8XY3 (R110). -/
def execXorReg (x y : Reg) (s : State) : Result := .next (s.setReg x (s.reg x ^^^ s.reg y)).advance

/-- 8XY4 (R111): the sum is taken before either write under both orders. -/
def execAddReg (x y : Reg) (s : State) : Result :=
  .next (s.flagAndResult x (carryOfSum (s.reg x) (s.reg y)) (fun _ => s.reg x + s.reg y)).advance

/-- 8XY5 (R112): as written, the difference reads V after the flag's write. -/
def execSubReg (x y : Reg) (s : State) : Result :=
  .next (s.flagAndResult x (greater (s.reg x) (s.reg y)) (fun t => t.reg x - t.reg y)).advance

/-- 8XY6 (R113): as written, the shift reads V[X] after the flag's write. V[Y] is not read. -/
def execShr (x _y : Reg) (s : State) : Result :=
  .next (s.flagAndResult x (shiftedOutRight (s.reg x)) (fun t => t.reg x >>> 1)).advance

/-- 8XY7 (R114): result first, then the flag of the operands as they were, under both orders (D11). -/
def execSubnReg (x y : Reg) (s : State) : Result :=
  .next ((s.setReg x (s.reg y - s.reg x)).setFlag (greater (s.reg y) (s.reg x))).advance

/-- 8XYE (R115): as written, the shift reads V[X] after the flag's write. V[Y] is not read. -/
def execShl (x _y : Reg) (s : State) : Result :=
  .next (s.flagAndResult x (shiftedOutLeft (s.reg x)) (fun t => t.reg x <<< 1)).advance

/-- CXNN (R116): the random byte of the step, AND NN. -/
def execRnd (x : Reg) (nn : Byte) (s : State) : Result :=
  .next (s.dropRandom.setReg x (s.randomByte &&& nn)).advance

end Sys2Proof.Machine
end

