-- ==== Sys2Proof/Machine/Control.lean ====
section
/-! DEFINITION. Return, jumps, call and the register skips (`42_control_flow.md`), and the unrecognized word
(`46_unrecognized.md`). -/

namespace Sys2Proof.Machine

/-- 00EE (R97): pc is the popped value, with no further advance. -/
def execRet (x : Nibble) (s : State) : Result :=
  match s.top with
  | none => raise .stackUnderflow (some (encode (.ret x))) 0 s
  | some a => .next (s.pop.setPc a)

/-- 1NNN (R98). -/
def execJp (nnn : Addr12) (s : State) : Result := .next (s.setPc (addrOf nnn))

/-- 2NNN (R99): the address after the call is pushed. -/
def execCall (nnn : Addr12) (s : State) : Result :=
  if s.stackFull then raise .stackOverflow (some (encode (.call nnn))) s.cfg.stackDepth s
  else .next ((s.push (s.pc + 2)).setPc (addrOf nnn))

/-- 3XNN (R100). -/
def execSeByte (x : Reg) (nn : Byte) (s : State) : Result := .next (s.skipIf (s.reg x == nn))

/-- 4XNN (R101). -/
def execSneByte (x : Reg) (nn : Byte) (s : State) : Result := .next (s.skipIf (s.reg x != nn))

/-- 5XY0 (R102). The ignored nibble has no effect (R69). -/
def execSeReg (x y : Reg) (_n : Nibble) (s : State) : Result := .next (s.skipIf (s.reg x == s.reg y))

/-- 9XY0 (R103). The ignored nibble has no effect (R69). -/
def execSneReg (x y : Reg) (_n : Nibble) (s : State) : Result := .next (s.skipIf (s.reg x != s.reg y))

/-- BNNN (R104): NNN + V0, not wrapped to 12 bits. -/
def execJpV0 (nnn : Addr12) (s : State) : Result := .next (s.setPc (addrOf nnn + zext16 (s.reg Reg.V0)))

/-- An unrecognized word (R131): pc advances and nothing else changes. -/
def execDw (_w : Word) (s : State) : Result := .next s.advance

end Sys2Proof.Machine
end

