-- ==== Sys2Proof/Machine/Display.lean ====
section
/-! DEFINITION. The sprite XOR engine and the display instructions (`41_display.md`). -/

namespace Sys2Proof.Machine

/-- The pixel of sprite column `sx` and row `sy`, by `SPRITE_EDGE` (R95); none where the bit is not drawn. -/
def spriteTarget (e : SpriteEdge) (sx sy : Nat) : Option Pixel :=
  match e with
  | .linearWrap => some ⟨(sy * 64 + sx) % 2048, Nat.mod_lt _ (by decide)⟩
  | .clip => if h : sx < 64 ∧ sy < 32 then some ⟨sy * 64 + sx, by omega⟩ else none
  | .torusWrap => some ⟨sy % 32 * 64 + sx % 64, by omega⟩

/-- The framebuffer and `hit` during a draw (R94). -/
structure Canvas where
  fb : Framebuffer
  hit : Bool
  deriving DecidableEq, Repr

/-- One sprite bit of 1 at its target (R94): note a collision, then toggle. -/
def drawBit (target : Option Pixel) (c : Canvas) : Canvas :=
  match target with
  | none => c
  | some p => ⟨Framebuffer.toggle c.fb p, c.hit || Framebuffer.pixel c.fb p⟩

/-- One sprite row `b` at screen row `sy`, from column `ox`, most significant bit first (R94). -/
def drawRow (e : SpriteEdge) (ox sy : Nat) (b : Byte) (c : Canvas) : Canvas :=
  (List.range 8).foldl (fun d col => if b.getLsbD (7 - col) then drawBit (spriteTarget e (ox + col) sy) d else d) c

/-- The sprite's first `n` rows, read from memory at `base` (R94). -/
def drawSprite (e : SpriteEdge) (m : Memory) (base ox oy n : Nat) (c : Canvas) : Canvas :=
  (List.range n).foldl (fun d row => drawRow e ox (oy + row) (m.read (base + row)) d) c

/-- The column a draw starts at: V[X] mod 64, read before VF is written (R94). -/
def State.originX (s : State) (x : Reg) : Nat := (s.reg x).toNat % 64

/-- The row a draw starts at: V[Y] mod 32, read before VF is written (R94). -/
def State.originY (s : State) (y : Reg) : Nat := (s.reg y).toNat % 32

/-- The framebuffer and `hit` after the whole draw of DXYN (R94). -/
def State.drawn (s : State) (x y : Reg) (n : Nibble) : Canvas :=
  drawSprite s.cfg.spriteEdge s.mem s.idx.toNat (s.originX x) (s.originY y) n.toNat ⟨s.fb, false⟩

/-- 00E0 (R93). The ignored nibble has no effect (R68). -/
def execCls (_x : Nibble) (s : State) : Result := .next (s.setFb Framebuffer.dark).advance

/-- DXYN (R94). -/
def execDrw (x y : Reg) (n : Nibble) (s : State) : Result :=
  withDataRange (encode (.drw x y n)) n.toNat s
    (((s.setFb (s.drawn x y n).fb).setFlag (s.drawn x y n).hit).advance)

end Sys2Proof.Machine
end

