-- ==== Sys2Proof/Machine/IndexMem.lean ====
section
/-! DEFINITION. The index register and memory instructions (`44_index_memory.md`). None changes I as a side effect. -/

namespace Sys2Proof.Machine

/-- ANNN (R118). -/
def execLdI (nnn : Addr12) (s : State) : Result := .next (s.setIdx (addrOf nnn)).advance

/-- FX1E (R119): no flag. -/
def execAddI (x : Reg) (s : State) : Result := .next (s.setIdx (s.indexSum x)).advance

/-- FX33 (R120). -/
def execLdB (x : Reg) (s : State) : Result :=
  withDataRange (encode (.ldB x)) 3 s
    (s.setMem (s.mem.writeBytes s.idx.toNat (decimalDigits (s.reg x)))).advance

/-- FX55 (R121): X + 1 bytes, I unchanged. -/
def execLdMemVx (x : Reg) (s : State) : Result :=
  withDataRange (encode (.ldMemVx x)) (x.val + 1) s
    (s.setMem (s.mem.writeBytes s.idx.toNat (s.regsUpTo x))).advance

/-- FX65 (R122): X + 1 bytes, I unchanged. -/
def execLdVxMem (x : Reg) (s : State) : Result :=
  withDataRange (encode (.ldVxMem x)) (x.val + 1) s
    (State.advance { s with v := s.loadedRegs x })

end Sys2Proof.Machine
end

