-- ==== Sys2Proof/Machine/KeysTimers.lean ====
section
/-! DEFINITION. The key skips, the key wait and its poll, and the timer moves (`45_keys_timers.md`). -/

namespace Sys2Proof.Machine

/-- A key skip: the key index may raise KeyOutOfRange with V[X] as info (R123, R125); else skip on `wanted`. -/
def keySkip (w : Word) (x : Reg) (wanted : Bool) (s : State) : Result :=
  match keyIndex s.cfg.keyIndexMode (s.reg x) with
  | none => raise .keyOutOfRange (some w) (s.reg x).toNat s
  | some k => .next (s.skipIf (s.keyDown k == wanted))

/-- EX9E (R123). -/
def execSkp (x : Reg) (s : State) : Result := keySkip (encode (.skp x)) x true s

/-- EXA1 (R124). -/
def execSknp (x : Reg) (s : State) : Result := keySkip (encode (.sknp x)) x false s

/-- FX07 (R126). -/
def execLdVxDt (x : Reg) (s : State) : Result := .next (s.setReg x s.dt).advance

/-- FX0A (R127): with a key down, its lowest number; else the wait begins and pc is not changed. -/
def execLdVxK (x : Reg) (s : State) : Result :=
  match lowestKey s.key with
  | some k => .next (s.setReg x (BitVec.ofNat 8 k)).advance
  | none => .next (s.setRun (.awaitingKey x))

/-- FX15 (R129). -/
def execLdDtVx (x : Reg) (s : State) : Result := .next (s.setDt (s.reg x)).advance

/-- FX18 (R130). -/
def execLdStVx (x : Reg) (s : State) : Result := .next (s.setSt (s.reg x)).advance

/-- KeyWaitPoll(x) (R128): one step in AwaitingKey, with no fetch. -/
def keyWaitPoll (x : Reg) (s : State) : Result :=
  match lowestKey s.key with
  | some k => .next ((s.setReg x (BitVec.ofNat 8 k)).setRun .running).advance
  | none => .next s

end Sys2Proof.Machine
end

