-- ==== Sys2Proof/Machine/Step.lean ====
section
/-! DEFINITION. `STEP` (`40_execution_cycle.md` R79 to R92), and the placing of one instruction where it is fetched. -/

namespace Sys2Proof.Machine

/-- `STEP` by run state (R79, R92). Halted: nothing (R80). AwaitingKey: one poll, no fetch (R81). Running: the fetch bound
(R82), then the fetched and decoded instruction (R83, R84). `started` is set first, but for Halted (R85). -/
def step (s : State) : Host.Outcome State Fault Refusal :=
  match s.run with
  | .halted => .next s
  | .awaitingKey x => keyWaitPoll x s.start
  | .running =>
    if s.fetchInRange then exec (decode s.cfg.strictDecode s.fetchWord) s.start
    else raise .outOfBounds none (firstOutside s.pc) s.start

/-- The state with one instruction stored where `step` fetches next, and so that it does fetch: the core running, and
`pc` at a place the fetch can read (log 10). -/
def State.withFetchWord (s : State) (nbits w : Nat) : State :=
  let word : Word := BitVec.ofNat 16 (w % 2 ^ nbits)
  let a : Word := if s.fetchInRange then s.pc else 0x0200
  { s with mem := s.mem.writeWord a.toNat word, pc := a, run := .running, fault := none }

end Sys2Proof.Machine
end

