-- ==== Sys2Proof/Machine/HostOps.lean ====
section
/-! DEFINITION. The host's operations on the core (`00_scope.md` R4): every way its state can change from outside a
`STEP`, each atomic (R53), and the frame the host drives it by (`60_exceptions.md` R145). -/

namespace Sys2Proof.Machine

/-- The operations of R4. -/
inductive HostOp where
  | reset
  | load (bytes : List Byte)
  | keysWrite (k : BitVec 16)
  | keysClear
  | step (r : Byte)
  | tick
  | fbRead
  | statusRead
  deriving DecidableEq, Repr

/-- What `STATUS_READ` returns (R147). -/
structure Status where
  run : RunState
  fault : Option FaultRecord
  dt : Byte
  st : Byte
  deriving DecidableEq, Repr

/-- What an operation returns (R4): nothing, a `LOAD` result (R154, R155), a `STEP` result (R88), the 2048 pixel bits
(R146) or the status (R147). A failed `LOAD` returns its fault kind, whose code is `Fault.code`, and R133's info, the
byte count. -/
inductive Reply where
  | done
  | loaded
  | loadFault (k : Fault) (info : Nat)
  | stepOk
  | stepWaiting
  | stepFault (k : Fault)
  | pixels (bits : List Bool)
  | status (r : Status)
  deriving DecidableEq, Repr

/-- Where a program is loaded (R5, R154). -/
abbrev progStart : Nat := 0x200

/-- Whether a program of `n` bytes fits: at most 3584 (R5, R155). -/
def programFits (n : Nat) : Bool := decide (n + progStart ≤ memSize)

/-- `LOAD`'s copy (R154). -/
def State.loaded (s : State) (bytes : List Byte) : State := s.setMem (s.mem.writeBytes progStart bytes)

/-- `KEYS_WRITE(k)` (R143): replaces the whole latch. -/
def State.keysWritten (s : State) (k : BitVec 16) : State := { s with key := k }

/-- `KEYS_CLEAR` (R144). -/
def State.keysCleared (s : State) : State := { s with key := 0 }

/-- One timer's countdown, floored at 0 (R142). -/
def countDown (b : Byte) : Byte := if b.toNat > 0 then b - 1 else b

/-- `TICK` (R142): both timers, in every run state, and nothing else. -/
def State.ticked (s : State) : State := { s with dt := countDown s.dt, st := countDown s.st }

/-- `FB_READ` (R146): the 2048 pixel bits, row-major. -/
def State.pixelBits (s : State) : List Bool := (List.finRange 2048).map fun p => Framebuffer.pixel s.fb p

/-- `STATUS_READ` (R147). -/
def State.status (s : State) : Status := ⟨s.run, s.fault, s.dt, s.st⟩

/-- What a `STEP` returns, by the run state after it (R88): a halted core returns the kind of its recorded fault (R80).
A halted core holds a record (R43), so the last case is reached from no reset. -/
def State.stepReply (s : State) : Reply :=
  match s.run, s.fault with
  | .running, _ => .stepOk
  | .awaitingKey _, _ => .stepWaiting
  | .halted, some f => .stepFault f.kind
  | .halted, none => .done

/-- `STEP(r)` (R79): the step with `r` as its random byte; no `r` is kept after it (R90). -/
def stepWithByte (r : Byte) (s : State) : Host.Outcome (State × Reply) Fault Refusal :=
  match step { s with rand := [r] } with
  | .next t => .next ({ t with rand := s.rand }, t.stepReply)
  | .fault k => .fault k
  | .refused q => .refused q

/-- One host operation (R4): the state after it and what it returns. `LOAD` with `started = 1` is refused (R156). -/
def perform (op : HostOp) (s : State) : Host.Outcome (State × Reply) Fault Refusal :=
  match op with
  | .reset => .next (s.hostReset, .done)
  | .load bytes =>
    if s.started then .refused .loadAfterStart
    else if programFits bytes.length then .next (s.loaded bytes, .loaded)
    else .next (s, .loadFault .programTooLarge bytes.length)
  | .keysWrite k => .next (s.keysWritten k, .done)
  | .keysClear => .next (s.keysCleared, .done)
  | .step r => stepWithByte r s
  | .tick => .next (s.ticked, .done)
  | .fbRead => .next (s, .pixels s.pixelBits)
  | .statusRead => .next (s, .status s.status)

/-- Operations in the order the host issues them: the composition of their rules (R54). -/
def performAll : List HostOp → State → Host.Outcome (State × List Reply) Fault Refusal
  | [], s => .next (s, [])
  | op :: ops, s =>
    match perform op s with
    | .next (t, r) =>
      match performAll ops t with
      | .next (u, rs) => .next (u, r :: rs)
      | .fault k => .fault k
      | .refused q => .refused q
    | .fault k => .fault k
    | .refused q => .refused q

/-- The steps of a frame, ended early by a fault (R145). -/
def frameSteps : List Byte → State → Host.Outcome (State × List Reply) Fault Refusal
  | [], s => .next (s, [])
  | r :: rs, s =>
    match stepWithByte r s with
    | .next (t, .stepFault k) => .next (t, [.stepFault k])
    | .next (t, rep) =>
      match frameSteps rs t with
      | .next (u, reps) => .next (u, rep :: reps)
      | .fault k => .fault k
      | .refused q => .refused q
    | .fault k => .fault k
    | .refused q => .refused q

/-- The end of a frame: `TICK`, then the latch clear if `KEY_CLEAR_AT_FRAME_END` (R145). -/
def State.frameEnded (s : State) : State :=
  if s.cfg.keyClearAtFrameEnd then s.ticked.keysCleared else s.ticked

/-- The bytes r_1 .. r_S of a frame, S being `STEPS_PER_FRAME` (R145): `r j` is the byte of the step after j others. -/
def frameBytes (c : Config) (r : Nat → Byte) : List Byte := (List.range c.stepsPerFrame).map r

/-- FRAME(keys, r_1 .. r_S) (R145): the state after it, and what its steps and its `FB_READ` returned (log 14). -/
def frame (keys : BitVec 16) (r : Nat → Byte) (s : State) : Host.Outcome (State × List Reply) Fault Refusal :=
  match frameSteps (frameBytes s.cfg r) (s.keysWritten keys) with
  | .next (t, reps) => .next (t.frameEnded, reps ++ [.pixels t.pixelBits])
  | .fault k => .fault k
  | .refused q => .refused q

/-- The boot sequence before the frames (R157): `RESET`, then `LOAD`. -/
def boot (program : List Byte) : List HostOp := [.reset, .load program]

end Sys2Proof.Machine
end

