-- ==== Sys2Proof/WellFormed.lean ====
section
/-! DEFINITION. Which instructions some word of the machine stands for, under a given `STRICT_DECODE`
(`30_encoding.md` R66, R68, R69; `46_unrecognized.md` R131). -/

namespace Sys2Proof

/-- A nibble a strict decoder fixes to 0 (R68, R69). -/
def nibbleFixed (strict : Bool) (n : Nibble) : Bool := n == 0x0 || !strict

/-- An unrecognized word is one that matches no row of the table (R131). -/
def unrecognized (strict : Bool) (w : Word) : Bool := opcodeTable.all fun r => !r.matchesWord strict w

/-- The instruction has an encoding: its fixed nibbles are as the pattern spells them, and a `dw` word is no row's. -/
def Instr.wf (strict : Bool) : Instr → Bool
  | .cls x => nibbleFixed strict x
  | .ret x => nibbleFixed strict x
  | .jp _ => true
  | .call _ => true
  | .seByte _ _ => true
  | .sneByte _ _ => true
  | .seReg _ _ n => nibbleFixed strict n
  | .ldByte _ _ => true
  | .addByte _ _ => true
  | .ldReg _ _ => true
  | .orReg _ _ => true
  | .andReg _ _ => true
  | .xorReg _ _ => true
  | .addReg _ _ => true
  | .subReg _ _ => true
  | .shr _ _ => true
  | .subnReg _ _ => true
  | .shl _ _ => true
  | .sneReg _ _ n => nibbleFixed strict n
  | .ldI _ => true
  | .jpV0 _ => true
  | .rnd _ _ => true
  | .drw _ _ _ => true
  | .skp _ => true
  | .sknp _ => true
  | .ldVxDt _ => true
  | .ldVxK _ => true
  | .ldDtVx _ => true
  | .ldStVx _ => true
  | .addI _ => true
  | .ldB _ => true
  | .ldMemVx _ => true
  | .ldVxMem _ => true
  | .dw w => unrecognized strict w

end Sys2Proof
end

