-- ==== Sys2Proof/Safety.lean ====
section
/-! DEFINITION. The terms claims are made in: a legal configuration (`00_scope.md` R6), the invariant every operation
keeps (`10_state.md` R23, R28, R43), a safe state, and what it is for parts of the state to be kept. -/

namespace Sys2Proof.Machine

/-- The legal values of R6 that the types do not fix already. -/
abbrev ConfigLegal (c : Config) : Prop :=
  12 ≤ c.stackDepth ∧ c.stackDepth ≤ 16 ∧ Memory.wf c.initMem = true ∧ 1 ≤ c.stepsPerFrame

/-- R43: the stack is within its capacity. -/
abbrev StackBounded (s : State) : Prop := s.stack.length ≤ s.cfg.stackDepth

/-- R43: I fits in `I_WRAP_BITS` bits. -/
abbrev IndexBounded (s : State) : Prop := s.idx.toNat < 2 ^ s.cfg.indexWrap.bits

/-- R23: no `pc` passes 0x10FE and no return address passes 0x1000, so that truncation to 16 bits never acts. -/
abbrev PcBounded (s : State) : Prop :=
  s.pc.toNat ≤ 0x10FE ∧ (s.stack.all fun a => decide (a.toNat ≤ 0x1000)) = true

/-- R43: the core is halted exactly when it holds a fault record. -/
abbrev HaltedIffFault (s : State) : Prop := s.run = .halted ↔ s.fault.isSome = true

/-- R39: a core that waits or is halted has been stepped. -/
abbrev StartedIfStopped (s : State) : Prop := s.run ≠ .running → s.started = true

/-- R43: a waiting core stands at the FX0A whose X it waits for (its word cannot change during the wait, R128). -/
def waitsAtKeyLoad (s : State) : Bool :=
  match s.run with
  | .awaitingKey x => s.fetchInRange && s.fetchWord == encode (.ldVxK x)
  | _ => true

/-- R133 and R134: what the record of a halted core says is so of the core as it stands. -/
def faultDescribes (s : State) (f : FaultRecord) : Bool :=
  f.pc == s.pc &&
  match f.kind, f.word with
  | .outOfBounds, none => !s.fetchInRange && f.info == firstOutside s.pc
  | .outOfBounds, some w => s.fetchInRange && w == s.fetchWord && f.info == firstOutside s.idx
  | .stackOverflow, some w => w == s.fetchWord && f.info == s.cfg.stackDepth && s.stackFull
  | .stackUnderflow, some w => w == s.fetchWord && f.info == 0 && s.stack.isEmpty
  | .keyOutOfRange, some w => w == s.fetchWord && decide (0xF < f.info) && decide (f.info ≤ 0xFF)
  | _, _ => false

/-- R28, R134: the fault record, if any, describes the halted core. -/
def faultRecordTrue (s : State) : Bool :=
  match s.fault with
  | some f => faultDescribes s f
  | none => true

/-- The invariant: it holds at reset and every operation keeps it (R43). -/
abbrev State.Inv (s : State) : Prop :=
  ConfigLegal s.cfg ∧ Memory.wf s.mem = true ∧ StackBounded s ∧ IndexBounded s ∧ PcBounded s ∧ HaltedIffFault s ∧
    StartedIfStopped s ∧ waitsAtKeyLoad s = true ∧ faultRecordTrue s = true

/-- A safe state: no fatal fault has happened (R135). -/
abbrev State.Safe (s : State) : Prop := s.run ≠ .halted

/-! ## What is kept: the frames of the instructions -/

/-- Every byte of memory reads as before. -/
abbrev KeepsMemory (s t : State) : Prop := ∀ a : Nat, t.byteAt a = s.byteAt a

/-- Every byte of memory outside `count` bytes from `base` reads as before. -/
abbrev KeepsMemoryOutside (base count : Nat) (s t : State) : Prop :=
  ∀ a : Nat, (a < base ∨ base + count ≤ a) → t.byteAt a = s.byteAt a

/-- Every register is as before. -/
abbrev KeepsRegs (s t : State) : Prop := ∀ r : Reg, t.reg r = s.reg r

/-- Every register but `x` is as before. -/
abbrev KeepsRegsBut (x : Reg) (s t : State) : Prop := ∀ r : Reg, r ≠ x → t.reg r = s.reg r

/-- Every register but `x` and VF is as before. -/
abbrev KeepsRegsButFlagAnd (x : Reg) (s t : State) : Prop := ∀ r : Reg, r ≠ x → r ≠ Reg.F → t.reg r = s.reg r

/-- I is as before. -/
abbrev KeepsIndex (s t : State) : Prop := t.idx = s.idx

/-- The call stack is as before. -/
abbrev KeepsStack (s t : State) : Prop := t.stack = s.stack

/-- Both timers are as before. -/
abbrev KeepsTimers (s t : State) : Prop := t.dt = s.dt ∧ t.st = s.st

/-- Every pixel is as before. -/
abbrev KeepsDisplay (s t : State) : Prop := ∀ p : Pixel, Framebuffer.pixel t.fb p = Framebuffer.pixel s.fb p

/-- The run state, the fault record and `started` are as before. -/
abbrev KeepsControl (s t : State) : Prop := t.run = s.run ∧ t.fault = s.fault ∧ t.started = s.started

/-- The key latch and the parameters are as before, which no instruction writes (R37, R42). -/
abbrev KeepsInputs (s t : State) : Prop := t.key = s.key ∧ t.cfg = s.cfg

/-- No random byte was taken (R90). -/
abbrev KeepsRandom (s t : State) : Prop := t.rand = s.rand ∧ t.draws = s.draws

/-- Everything but the registers, `pc` and the random input is as before. -/
abbrev KeepsAllButRegsPcRandom (s t : State) : Prop :=
  KeepsMemory s t ∧ KeepsIndex s t ∧ KeepsStack s t ∧ KeepsTimers s t ∧ KeepsDisplay s t ∧ KeepsControl s t ∧
    KeepsInputs s t

/-- Everything but the registers and `pc` is as before. -/
abbrev KeepsAllButRegsPc (s t : State) : Prop := KeepsAllButRegsPcRandom s t ∧ KeepsRandom s t

/-- Everything but `pc` is as before. -/
abbrev KeepsAllButPc (s t : State) : Prop := KeepsAllButRegsPc s t ∧ KeepsRegs s t

/-! ## The vocabulary of the results -/

/-- The instruction completes from every state: V[x] is `value` of the state before, `pc` advances, and nothing else
changes. -/
abbrev RegisterResult (i : Instr) (x : Reg) (value : State → Byte) : Prop :=
  ∀ s : State, ∃ t : State, exec i s = .next t ∧ t.reg x = value s ∧ t.pc = s.pc + 2 ∧ KeepsRegsBut x s t ∧
    KeepsAllButRegsPc s t

/-- The instruction completes from every state: `pc` passes the next instruction exactly when `cond` holds of the state
before, and nothing else changes. -/
abbrev SkipResult (i : Instr) (cond : State → Prop) : Prop :=
  ∀ s : State, ∃ t : State, exec i s = .next t ∧ (cond s → t.pc = s.pc + 4) ∧ (¬ cond s → t.pc = s.pc + 2) ∧
    KeepsAllButPc s t

/-- A bit 1 of the sprite of DXYN falls on pixel `p` (R94, R95): rows from memory at I, most significant bit first, from
the origin (V[X] mod 64, V[Y] mod 32). -/
abbrev DrawsPixel (s : State) (x y : Reg) (n : Nibble) (p : Pixel) : Prop :=
  ∃ row col : Nat, row < n.toNat ∧ col < 8 ∧ (s.byteAt (s.idx.toNat + row)).getLsbD (7 - col) = true ∧
    spriteTarget s.cfg.spriteEdge ((s.reg x).toNat % 64 + col) ((s.reg y).toNat % 32 + row) = some p

/-- The fault an instruction meets in a state, with its `info`, by R133 and the checks of R49, R97, R99, R125; none if it
meets none. It is written from R133's table, apart from the meanings. -/
def faultMet (s : State) : Instr → Option (Fault × Nat)
  | .ret _ => if s.stack.length = 0 then some (.stackUnderflow, 0) else none
  | .call _ => if s.stack.length = s.cfg.stackDepth then some (.stackOverflow, s.cfg.stackDepth) else none
  | .drw _ _ n =>
    if 1 ≤ n.toNat ∧ 0xFFF < s.idx.toNat + n.toNat - 1 then some (.outOfBounds, max s.idx.toNat 0x1000) else none
  | .ldB _ => if 0xFFF < s.idx.toNat + 2 then some (.outOfBounds, max s.idx.toNat 0x1000) else none
  | .ldMemVx x => if 0xFFF < s.idx.toNat + x.val then some (.outOfBounds, max s.idx.toNat 0x1000) else none
  | .ldVxMem x => if 0xFFF < s.idx.toNat + x.val then some (.outOfBounds, max s.idx.toNat 0x1000) else none
  | .skp x =>
    if 0xF < (s.reg x).toNat ∧ s.cfg.keyIndexMode = .fault then some (.keyOutOfRange, (s.reg x).toNat) else none
  | .sknp x =>
    if 0xF < (s.reg x).toNat ∧ s.cfg.keyIndexMode = .fault then some (.keyOutOfRange, (s.reg x).toNat) else none
  | .cls _ => none
  | .jp _ => none
  | .seByte _ _ => none
  | .sneByte _ _ => none
  | .seReg _ _ _ => none
  | .ldByte _ _ => none
  | .addByte _ _ => none
  | .ldReg _ _ => none
  | .orReg _ _ => none
  | .andReg _ _ => none
  | .xorReg _ _ => none
  | .addReg _ _ => none
  | .subReg _ _ => none
  | .shr _ _ => none
  | .subnReg _ _ => none
  | .shl _ _ => none
  | .sneReg _ _ _ => none
  | .ldI _ => none
  | .jpV0 _ => none
  | .rnd _ _ => none
  | .ldVxDt _ => none
  | .ldVxK _ => none
  | .ldDtVx _ => none
  | .ldStVx _ => none
  | .addI _ => none
  | .dw _ => none

/-- The instructions of R24, which write VF as a flag. -/
def writesFlag : Instr → Bool
  | .addReg _ _ | .subReg _ _ | .shr _ _ | .subnReg _ _ | .shl _ _ | .drw _ _ _ => true
  | _ => false

/-- The instruction names VF as the register it writes (R16): as X of a row that writes V[X], or as the last of FX65. -/
def namesFlagAsTarget : Instr → Bool
  | .ldByte x _ | .addByte x _ | .ldReg x _ | .orReg x _ | .andReg x _ | .xorReg x _ | .rnd x _ | .ldVxDt x | .ldVxK x
  | .ldVxMem x => x == Reg.F
  | _ => false

end Sys2Proof.Machine
end

