-- ==== Sys2Proof/Certificates/Slice0/Obligations.lean ====
section
/-! DEFINITION. The statements for the provers. Each docstring names the rules of spec/ it formalises. -/

open Sys2Proof Sys2Proof.Machine

/-! ## Encoding -/

/-- R64, R66: words written out from the patterns decode to the instructions they stand for. -/
def Obligations.PatternWordsDecode : Prop :=
  decode true 0x00E0 = .cls 0 ∧ decode true 0x1234 = .jp 0x234 ∧ decode true 0x63AB = .ldByte 3 0xAB ∧
    decode true 0x8AB5 = .subReg 0xA 0xB ∧ decode true 0xD12F = .drw 1 2 0xF ∧ decode true 0xE5A1 = .sknp 5 ∧
    decode true 0xF233 = .ldB 2 ∧ decode true 0xF029 = .dw 0xF029

/-- R66, R68, R69: under each `STRICT_DECODE`, a word is the instruction of the row whose pattern it matches, and matches
no other row. -/
def Obligations.DecodeSelectsTheMatchingRow : Prop :=
  ∀ (strict : Bool) (w : Word) (n : Nat) (row : OpcodeRow), opcodeTable[n]? = some row →
    ((w &&& (if strict then row.mask else row.maskNonStrict)) = row.pattern ↔
      (decode strict w).rowNumber = some (n + 1))

/-- R63 to R74: the word of a well-formed instruction decodes to it, at every operand value. -/
def Obligations.DecodeOfEncode : Prop :=
  ∀ (strict : Bool) (i : Instr), i.wf strict = true → decode strict (encode i) = i

/-- R64, R66: every word decodes to a well-formed instruction, whose word it is. -/
def Obligations.EncodeOfDecode : Prop :=
  ∀ (strict : Bool) (w : Word), (decode strict w).wf strict = true ∧ encode (decode strict w) = w

/-- R132: the unrecognized words by group, under each `STRICT_DECODE`. -/
def Obligations.UnrecognizedWordsByGroup : Prop :=
  ∀ w : Word,
    (decode true w = .dw w ↔
      (fieldOp w = 0x0 ∧ w ≠ 0x00E0 ∧ w ≠ 0x00EE) ∨ (fieldOp w = 0x5 ∧ fieldN w ≠ 0) ∨
      (fieldOp w = 0x8 ∧ fieldN w ∈ [0x8, 0x9, 0xA, 0xB, 0xC, 0xD, 0xF]) ∨ (fieldOp w = 0x9 ∧ fieldN w ≠ 0) ∨
      (fieldOp w = 0xE ∧ fieldNN w ∉ [0x9E, 0xA1]) ∨
      (fieldOp w = 0xF ∧ fieldNN w ∉ [0x07, 0x0A, 0x15, 0x18, 0x1E, 0x33, 0x55, 0x65])) ∧
    (decode false w = .dw w ↔
      (fieldOp w = 0x0 ∧ fieldNN w ∉ [0xE0, 0xEE]) ∨
      (fieldOp w = 0x8 ∧ fieldN w ∈ [0x8, 0x9, 0xA, 0xB, 0xC, 0xD, 0xF]) ∨
      (fieldOp w = 0xE ∧ fieldNN w ∉ [0x9E, 0xA1]) ∨
      (fieldOp w = 0xF ∧ fieldNN w ∉ [0x07, 0x0A, 0x15, 0x18, 0x1E, 0x33, 0x55, 0x65]))

/-! ## The step -/

/-- R45, R82 to R85: a running core runs the instruction its two bytes at `pc` decode to, on the state with `started`
set. -/
def Obligations.StepRunsTheDecodedInstruction : Prop :=
  ∀ (s : State) (i : Instr), s.run = .running → s.pc.toNat + 1 < 4096 →
    decodeBytes s.cfg.strictDecode [s.byteAt s.pc.toNat, s.byteAt (s.pc.toNat + 1)] = .instr i [] →
    step s = exec i { s with started := true }

/-- R48: a fetch past the end of memory faults, with no word in the record. -/
def Obligations.FetchPastMemoryFaults : Prop :=
  ∀ s : State, s.run = .running → 4096 ≤ s.pc.toNat + 1 →
    step s = .next { s with
      started := true, run := .halted,
      fault := some { kind := .outOfBounds, pc := s.pc, word := none, info := max s.pc.toNat 0x1000 } }

/-- R80: a `STEP` of a halted core changes nothing and returns the recorded fault. -/
def Obligations.HaltedStepReturnsTheFault : Prop :=
  ∀ (s : State) (f : FaultRecord) (r : Byte), s.run = .halted → s.fault = some f →
    step s = .next s ∧ perform (.step r) s = .next (s, .stepFault f.kind)

/-- R81: a waiting core polls the keys (R128) and does nothing else, whatever `pc` is. -/
def Obligations.WaitingStepOnlyPolls : Prop :=
  ∀ (s : State) (x : Reg), s.run = .awaitingKey x →
    (∀ k : Key, s.keyDown k = true → (∀ j : Key, j < k → s.keyDown j = false) →
      ∃ t, step s = .next t ∧ (t.reg x).toNat = k.val ∧ t.run = .running ∧ t.pc = s.pc + 2 ∧ t.started = true ∧
        t.fault = s.fault ∧ KeepsRegsBut x s t ∧ KeepsMemory s t ∧ KeepsIndex s t ∧ KeepsStack s t ∧ KeepsTimers s t ∧
        KeepsDisplay s t ∧ KeepsInputs s t ∧ KeepsRandom s t) ∧
    ((∀ k : Key, s.keyDown k = false) → step s = .next { s with started := true })

/-- The model's choice (log 5, DEDUCED), under R79, R80 and R83: a fault is answered as a next state, so that no state stops
the model and every step answers a next state. It does not say that no fault happens. -/
def Obligations.EveryStepAnswersANextState : Prop := ∀ s : State, ∃ t, step s = .next t

/-- R88: what `STEP` returns is told by the run state after it. -/
def Obligations.StepReplyTellsTheRunState : Prop :=
  ∀ (s : State) (r : Byte), HaltedIffFault s → ∃ t reply, perform (.step r) s = .next (t, reply) ∧
    (t.run = .running → reply = .stepOk) ∧ (∀ x, t.run = .awaitingKey x → reply = .stepWaiting) ∧
    (t.run = .halted → ∃ f, t.fault = some f ∧ reply = .stepFault f.kind)

/-- R90: only CXNN reads `r`, and no value of `r` is kept. -/
def Obligations.RandomByteReadOnlyByRnd : Prop :=
  ∀ (s : State) (r r' : Byte),
    ((∀ x nn, ¬ (s.run = .running ∧ s.fetchInRange = true ∧ decode s.cfg.strictDecode s.fetchWord = .rnd x nn)) →
      perform (.step r) s = perform (.step r') s) ∧
    (∀ t reply, perform (.step r) s = .next (t, reply) → t.rand = s.rand ∧ t.draws = s.draws)

/-- R91: no step writes the key latch, and the only step that changes a timer is FX15 or FX18, with a register value. -/
def Obligations.StepTouchesNoKeyAndCountsNoTimer : Prop :=
  ∀ s t : State, step s = .next t → t.key = s.key ∧
    (t.dt = s.dt ∨ ∃ x, s.run = .running ∧ decode s.cfg.strictDecode s.fetchWord = .ldDtVx x ∧ t.dt = s.reg x) ∧
    (t.st = s.st ∨ ∃ x, s.run = .running ∧ decode s.cfg.strictDecode s.fetchWord = .ldStVx x ∧ t.st = s.reg x)

/-! ## Invariants -/

/-- R41, R43: the invariant holds after `RESET` under every legal configuration, the default one included. -/
def Obligations.InvariantHoldsAtReset : Prop :=
  State.reset.Inv ∧ ∀ c : Config, ConfigLegal c → (State.initial c).Inv

/-- R23, R28, R43: every step keeps the invariant. -/
def Obligations.EveryStepKeepsTheInvariant : Prop := ∀ s t : State, s.Inv → step s = .next t → t.Inv

/-- R43: every host operation keeps the invariant. -/
def Obligations.EveryHostOperationKeepsTheInvariant : Prop :=
  ∀ (op : HostOp) (s t : State) (reply : Reply), s.Inv → perform op s = .next (t, reply) → t.Inv

/-! ## Faults -/

/-- R136: a step that faults changes `fault`, `run` and `started` only. -/
def Obligations.FaultsArePrecise : Prop :=
  ∀ s t : State, s.run ≠ .halted → step s = .next t → t.run = .halted →
    ∃ f : FaultRecord, f.pc = s.pc ∧ t = { s with started := true, run := .halted, fault := some f }

/-- R133, R134: an instruction faults exactly in the cases of R133's table, and then records that kind and info, its
address and its word. -/
def Obligations.FaultsHaveTheListedCauses : Prop :=
  ∀ (i : Instr) (s : State), s.run = .running → StackBounded s →
    (∀ k info, faultMet s i = some (k, info) →
      exec i s = .next { s with
        run := .halted, fault := some { kind := k, pc := s.pc, word := some (encode i), info := info } }) ∧
    (faultMet s i = none → ∃ t, exec i s = .next t ∧ t.run ≠ .halted ∧ t.fault = s.fault)

/-- R49: the four memory instructions fault exactly when a byte of their range is past 0xFFF; DXYN with N = 0 never. -/
def Obligations.DataRangeIsCheckedFirst : Prop :=
  ∀ (i : Instr) (count : Nat) (s : State),
    ((∃ x y n, i = .drw x y n ∧ count = n.toNat) ∨ (∃ x, i = .ldB x ∧ count = 3) ∨
      (∃ x : Reg, i = .ldMemVx x ∧ count = x.val + 1) ∨ (∃ x : Reg, i = .ldVxMem x ∧ count = x.val + 1)) →
    ((1 ≤ count ∧ 0xFFF < s.idx.toNat + count - 1) →
      exec i s = .next { s with
        run := .halted,
        fault := some
          { kind := .outOfBounds, pc := s.pc, word := some (encode i), info := max s.idx.toNat 0x1000 } }) ∧
    ((count = 0 ∨ s.idx.toNat + count - 1 ≤ 0xFFF) → ∃ t, exec i s = .next t ∧ t.run = s.run ∧ t.fault = s.fault)

/-- R135, R140: only `RESET` leaves `Halted`. -/
def Obligations.OnlyResetLeavesHalted : Prop :=
  ∀ (op : HostOp) (s t : State) (reply : Reply), s.run = .halted → perform op s = .next (t, reply) →
    (t.run = .halted ∧ t.fault = s.fault) ∨ (op = .reset ∧ t.run = .running ∧ t.fault = none)

/-! ## Who writes what -/

/-- R18, R30, R36, R47: memory is written by FX33 and FX55 only, I by ANNN and FX1E only, the stack by 2NNN and 00EE only,
the framebuffer by 00E0 and DXYN only. -/
def Obligations.EachPartHasItsWriters : Prop :=
  ∀ (i : Instr) (s t : State), exec i s = .next t →
    (KeepsMemory s t ∨ ∃ x, i = .ldB x ∨ i = .ldMemVx x) ∧
    (KeepsIndex s t ∨ (∃ nnn, i = .ldI nnn) ∨ ∃ x, i = .addI x) ∧
    (KeepsStack s t ∨ (∃ nnn, i = .call nnn) ∨ ∃ n, i = .ret n) ∧
    (KeepsDisplay s t ∨ (∃ n, i = .cls n) ∨ ∃ x y n, i = .drw x y n)

/-- R24, R25: no instruction but the six of R24 writes VF, unless it names VF as the register it writes. -/
def Obligations.OnlyFlagInstructionsWriteVF : Prop :=
  ∀ (i : Instr) (s t : State), exec i s = .next t → writesFlag i = false → namesFlagAsTarget i = false →
    t.reg Reg.F = s.reg Reg.F

/-! ## Registers and arithmetic -/

/-- R105, R106: load immediate; add immediate, which wraps and sets no flag. -/
def Obligations.ImmediateResults : Prop :=
  ∀ (x : Reg) (nn : Byte),
    RegisterResult (.ldByte x nn) x (fun _ => nn) ∧
    RegisterResult (.addByte x nn) x (fun s => BitVec.ofNat 8 (((s.reg x).toNat + nn.toNat) % 256))

/-- R107 to R110: copy, OR, AND, XOR, which write only V[X]. -/
def Obligations.CopyAndLogicResults : Prop :=
  ∀ x y : Reg,
    RegisterResult (.ldReg x y) x (fun s => s.reg y) ∧
    RegisterResult (.orReg x y) x (fun s => s.reg x ||| s.reg y) ∧
    RegisterResult (.andReg x y) x (fun s => s.reg x &&& s.reg y) ∧
    RegisterResult (.xorReg x y) x (fun s => s.reg x ^^^ s.reg y)

/-- R111: add with carry, with X = F under both orders of the flag's write. -/
def Obligations.AddWithCarryResult : Prop :=
  ∀ (x y : Reg) (s : State), ∃ t, exec (.addReg x y) s = .next t ∧ t.pc = s.pc + 2 ∧
    KeepsRegsButFlagAnd x s t ∧ KeepsAllButRegsPc s t ∧
    (x ≠ Reg.F → (t.reg x).toNat = ((s.reg x).toNat + (s.reg y).toNat) % 256 ∧
      t.reg Reg.F = if 255 < (s.reg x).toNat + (s.reg y).toNat then 1 else 0) ∧
    (x = Reg.F → s.cfg.flagOrder = .asWritten →
      (t.reg Reg.F).toNat = ((s.reg x).toNat + (s.reg y).toNat) % 256) ∧
    (x = Reg.F → s.cfg.flagOrder = .flagLast →
      t.reg Reg.F = if 255 < (s.reg x).toNat + (s.reg y).toNat then 1 else 0)

/-- R112: subtract, the flag being strictly greater, with every case of X = F and Y = F under both orders. -/
def Obligations.SubtractResult : Prop :=
  ∀ (x y : Reg) (s : State) (f : Byte), f = (if (s.reg y).toNat < (s.reg x).toNat then 1 else 0) →
    ∃ t, exec (.subReg x y) s = .next t ∧ t.pc = s.pc + 2 ∧ KeepsRegsButFlagAnd x s t ∧ KeepsAllButRegsPc s t ∧
    (x ≠ Reg.F → y ≠ Reg.F →
      (t.reg x).toNat = ((s.reg x).toNat + 256 - (s.reg y).toNat) % 256 ∧ t.reg Reg.F = f) ∧
    (x = Reg.F → y ≠ Reg.F → s.cfg.flagOrder = .asWritten →
      (t.reg Reg.F).toNat = (f.toNat + 256 - (s.reg y).toNat) % 256) ∧
    (x = Reg.F → y ≠ Reg.F → s.cfg.flagOrder = .flagLast → t.reg Reg.F = f) ∧
    (x ≠ Reg.F → y = Reg.F → s.cfg.flagOrder = .asWritten →
      (t.reg x).toNat = ((s.reg x).toNat + 256 - f.toNat) % 256 ∧ t.reg Reg.F = f) ∧
    (x ≠ Reg.F → y = Reg.F → s.cfg.flagOrder = .flagLast →
      (t.reg x).toNat = ((s.reg x).toNat + 256 - (s.reg y).toNat) % 256 ∧ t.reg Reg.F = f) ∧
    (x = Reg.F → y = Reg.F → t.reg Reg.F = 0)

/-- R113: shift right by one, V[Y] not read, with X = F under both orders. -/
def Obligations.ShiftRightResult : Prop :=
  ∀ (x y : Reg) (s : State), ∃ t, exec (.shr x y) s = .next t ∧ t.pc = s.pc + 2 ∧
    KeepsRegsButFlagAnd x s t ∧ KeepsAllButRegsPc s t ∧
    (x ≠ Reg.F → (t.reg x).toNat = (s.reg x).toNat / 2 ∧ (t.reg Reg.F).toNat = (s.reg x).toNat % 2) ∧
    (x = Reg.F → s.cfg.flagOrder = .asWritten → t.reg Reg.F = 0) ∧
    (x = Reg.F → s.cfg.flagOrder = .flagLast → (t.reg Reg.F).toNat = (s.reg x).toNat % 2)

/-- R114: subtract from V[Y]; the flag compares the operands as they were, and wins when X = F. -/
def Obligations.SubtractFromResult : Prop :=
  ∀ (x y : Reg) (s : State) (f : Byte), f = (if (s.reg x).toNat < (s.reg y).toNat then 1 else 0) →
    ∃ t, exec (.subnReg x y) s = .next t ∧ t.pc = s.pc + 2 ∧ KeepsRegsButFlagAnd x s t ∧ KeepsAllButRegsPc s t ∧
    (x ≠ Reg.F → (t.reg x).toNat = ((s.reg y).toNat + 256 - (s.reg x).toNat) % 256) ∧ t.reg Reg.F = f

/-- R115: shift left by one, V[Y] not read, with X = F under both orders. -/
def Obligations.ShiftLeftResult : Prop :=
  ∀ (x y : Reg) (s : State), ∃ t, exec (.shl x y) s = .next t ∧ t.pc = s.pc + 2 ∧
    KeepsRegsButFlagAnd x s t ∧ KeepsAllButRegsPc s t ∧
    (x ≠ Reg.F → (t.reg x).toNat = (s.reg x).toNat * 2 % 256 ∧ (t.reg Reg.F).toNat = (s.reg x).toNat / 128) ∧
    (x = Reg.F → s.cfg.flagOrder = .asWritten → (t.reg Reg.F).toNat = (s.reg x).toNat / 128 * 2) ∧
    (x = Reg.F → s.cfg.flagOrder = .flagLast → (t.reg Reg.F).toNat = (s.reg x).toNat / 128)

/-- R116, R117: CXNN completes from every state, with some byte AND NN. Where the byte comes from when the host has
supplied bytes is the model's choice (log 4). -/
def Obligations.RandomResult : Prop :=
  ∀ (x : Reg) (nn : Byte) (s : State), ∃ t b, exec (.rnd x nn) s = .next t ∧ t.reg x = b &&& nn ∧ t.pc = s.pc + 2 ∧
    KeepsRegsBut x s t ∧ KeepsAllButRegsPcRandom s t ∧
    (∀ r rest, s.rand = r :: rest → b = r ∧ t.rand = rest ∧ t.draws = s.draws)

/-- R116: a `STEP(r)` that runs CXNN writes V[X] with r AND NN, for every `r`, and changes else only `pc` and
`started`. -/
def Obligations.StepWithRandomByte : Prop :=
  ∀ (x : Reg) (nn r : Byte) (s : State), s.run = .running → s.fetchInRange = true →
    decode s.cfg.strictDecode s.fetchWord = .rnd x nn →
    ∃ t, perform (.step r) s = .next (t, .stepOk) ∧ t.reg x = r &&& nn ∧ t.pc = s.pc + 2 ∧ t.started = true ∧
      t.run = .running ∧ t.fault = s.fault ∧ KeepsRegsBut x s t ∧ KeepsMemory s t ∧ KeepsIndex s t ∧ KeepsStack s t ∧
      KeepsTimers s t ∧ KeepsDisplay s t ∧ KeepsInputs s t ∧ KeepsRandom s t

/-! ## Display -/

/-- R93: clear the framebuffer. -/
def Obligations.ClearResult : Prop :=
  ∀ (n : Nibble) (s : State), ∃ t, exec (.cls n) s = .next t ∧
    (∀ p : Pixel, Framebuffer.pixel t.fb p = false) ∧ t.pc = s.pc + 2 ∧ KeepsRegs s t ∧ KeepsMemory s t ∧
    KeepsIndex s t ∧ KeepsStack s t ∧ KeepsTimers s t ∧ KeepsControl s t ∧ KeepsInputs s t ∧ KeepsRandom s t

/-- R94: a draw whose rows are in memory flips exactly the pixels its bits of 1 fall on; VF is 1 exactly when one of
those pixels was lit; nothing else changes. -/
def Obligations.DrawFlipsTheSpritesPixels : Prop :=
  ∀ (x y : Reg) (n : Nibble) (s : State), (n.toNat = 0 ∨ s.idx.toNat + n.toNat ≤ 4096) →
    ∃ t, exec (.drw x y n) s = .next t ∧
      (∀ p : Pixel, (DrawsPixel s x y n p → Framebuffer.pixel t.fb p = !Framebuffer.pixel s.fb p) ∧
        (¬ DrawsPixel s x y n p → Framebuffer.pixel t.fb p = Framebuffer.pixel s.fb p)) ∧
      ((∃ p : Pixel, DrawsPixel s x y n p ∧ Framebuffer.pixel s.fb p = true) → t.reg Reg.F = 1) ∧
      ((¬ ∃ p : Pixel, DrawsPixel s x y n p ∧ Framebuffer.pixel s.fb p = true) → t.reg Reg.F = 0) ∧
      t.pc = s.pc + 2 ∧ KeepsRegsBut Reg.F s t ∧ KeepsMemory s t ∧ KeepsIndex s t ∧ KeepsStack s t ∧ KeepsTimers s t ∧
      KeepsControl s t ∧ KeepsInputs s t ∧ KeepsRandom s t

/-- R95: the target of a sprite bit by `SPRITE_EDGE`, for every reachable column and row. -/
def Obligations.SpriteTargetByEdge : Prop :=
  ∀ sx sy : Nat, sx ≤ 70 → sy ≤ 46 →
    (∃ p : Pixel, spriteTarget .linearWrap sx sy = some p ∧ p.val = (sy * 64 + sx) % 2048) ∧
    (∃ p : Pixel, spriteTarget .torusWrap sx sy = some p ∧ p.val = sy % 32 * 64 + sx % 64) ∧
    (sx < 64 ∧ sy < 32 → ∃ p : Pixel, spriteTarget .clip sx sy = some p ∧ p.val = sy * 64 + sx ∧
      spriteTarget .linearWrap sx sy = some p ∧ spriteTarget .torusWrap sx sy = some p) ∧
    (¬ (sx < 64 ∧ sy < 32) → spriteTarget .clip sx sy = none)

/-- R96: two sprite bits of one draw never map to one pixel, under each `SPRITE_EDGE`. -/
def Obligations.SpriteBitsHaveDistinctTargets : Prop :=
  ∀ (e : SpriteEdge) (ox oy row col row' col' : Nat) (p : Pixel), ox < 64 → oy < 32 → row < 15 → col < 8 →
    row' < 15 → col' < 8 → spriteTarget e (ox + col) (oy + row) = some p →
    spriteTarget e (ox + col') (oy + row') = some p → row' = row ∧ col' = col

/-- R96: drawing the same sprite again at the same place restores the framebuffer, and the second VF is 1 exactly when a
drawn bit fell on a pixel dark before the first draw. The second draw may name other registers for the place. -/
def Obligations.DrawingTwiceRestores : Prop :=
  ∀ (x y x' y' : Reg) (n : Nibble) (s t v u : State), (n.toNat = 0 ∨ s.idx.toNat + n.toNat ≤ 4096) →
    exec (.drw x y n) s = .next t → KeepsDisplay t v → KeepsMemory s v → KeepsIndex s v → v.cfg = s.cfg →
    (v.reg x').toNat % 64 = (s.reg x).toNat % 64 → (v.reg y').toNat % 32 = (s.reg y).toNat % 32 →
    exec (.drw x' y' n) v = .next u →
    KeepsDisplay s u ∧
      (u.reg Reg.F = 1 ↔ ∃ p : Pixel, DrawsPixel s x y n p ∧ Framebuffer.pixel s.fb p = false)

/-! ## Control flow -/

/-- R98, R104: the jumps, which check nothing. -/
def Obligations.JumpResults : Prop :=
  ∀ (nnn : Addr12) (s : State),
    (∃ t, exec (.jp nnn) s = .next t ∧ t.pc.toNat = nnn.toNat ∧ KeepsAllButPc s t) ∧
    (∃ t, exec (.jpV0 nnn) s = .next t ∧ t.pc.toNat = nnn.toNat + (s.reg Reg.V0).toNat ∧ KeepsAllButPc s t)

/-- R99: call pushes the address after it, or faults on a full stack. -/
def Obligations.CallResult : Prop :=
  ∀ (nnn : Addr12) (s : State),
    (s.stack.length < s.cfg.stackDepth →
      ∃ t, exec (.call nnn) s = .next t ∧ t.pc.toNat = nnn.toNat ∧ t.stack = s.stack ++ [s.pc + 2] ∧ KeepsRegs s t ∧
        KeepsMemory s t ∧ KeepsIndex s t ∧ KeepsTimers s t ∧ KeepsDisplay s t ∧ KeepsControl s t ∧ KeepsInputs s t ∧
        KeepsRandom s t) ∧
    (s.stack.length = s.cfg.stackDepth →
      exec (.call nnn) s = .next { s with
        run := .halted,
        fault := some
          { kind := .stackOverflow, pc := s.pc, word := some (encode (.call nnn)), info := s.cfg.stackDepth } })

/-- R97: return pops the top entry into `pc` with no further advance, or faults on an empty stack. -/
def Obligations.ReturnResult : Prop :=
  ∀ (n : Nibble) (s : State),
    (∀ rest a, s.stack = rest ++ [a] →
      ∃ t, exec (.ret n) s = .next t ∧ t.pc = a ∧ t.stack = rest ∧ KeepsRegs s t ∧ KeepsMemory s t ∧ KeepsIndex s t ∧
        KeepsTimers s t ∧ KeepsDisplay s t ∧ KeepsControl s t ∧ KeepsInputs s t ∧ KeepsRandom s t) ∧
    (s.stack = [] →
      exec (.ret n) s = .next { s with
        run := .halted,
        fault := some { kind := .stackUnderflow, pc := s.pc, word := some (encode (.ret n)), info := 0 } })

/-- R97, R99: a return from the stack a call left goes to the address after the call, at any depth below capacity. -/
def Obligations.ReturnComesBackAfterCall : Prop :=
  ∀ (nnn : Addr12) (n : Nibble) (s t u : State), s.stack.length < s.cfg.stackDepth → exec (.call nnn) s = .next t →
    KeepsStack t u → ∃ w, exec (.ret n) u = .next w ∧ w.pc = s.pc + 2 ∧ w.stack = s.stack

/-- R100 to R103: the register skips. -/
def Obligations.SkipResults : Prop :=
  ∀ (x y : Reg) (nn : Byte) (n : Nibble),
    SkipResult (.seByte x nn) (fun s => s.reg x = nn) ∧ SkipResult (.sneByte x nn) (fun s => s.reg x ≠ nn) ∧
    SkipResult (.seReg x y n) (fun s => s.reg x = s.reg y) ∧ SkipResult (.sneReg x y n) (fun s => s.reg x ≠ s.reg y)

/-- R131: an unrecognized word advances `pc` and changes nothing else. -/
def Obligations.UnrecognizedWordDoesNothing : Prop :=
  ∀ (w : Word) (s : State), ∃ t, exec (.dw w) s = .next t ∧ t.pc = s.pc + 2 ∧ KeepsAllButPc s t

/-! ## Index register and memory -/

/-- R118, R119: load I; add to I with the wrap of `I_WRAP_BITS` and no flag. -/
def Obligations.IndexResults : Prop :=
  ∀ (nnn : Addr12) (x : Reg) (s : State),
    (∃ t, exec (.ldI nnn) s = .next t ∧ t.idx.toNat = nnn.toNat ∧ t.pc = s.pc + 2 ∧ KeepsRegs s t ∧ KeepsMemory s t ∧
      KeepsStack s t ∧ KeepsTimers s t ∧ KeepsDisplay s t ∧ KeepsControl s t ∧ KeepsInputs s t ∧ KeepsRandom s t) ∧
    (∃ t, exec (.addI x) s = .next t ∧
      t.idx.toNat = (s.idx.toNat + (s.reg x).toNat) % 2 ^ s.cfg.indexWrap.bits ∧ t.pc = s.pc + 2 ∧ KeepsRegs s t ∧
      KeepsMemory s t ∧ KeepsStack s t ∧ KeepsTimers s t ∧ KeepsDisplay s t ∧ KeepsControl s t ∧ KeepsInputs s t ∧
      KeepsRandom s t)

/-- R120: FX33 stores the hundreds, tens and units at I, I + 1, I + 2, or faults before the first store. -/
def Obligations.DigitsResult : Prop :=
  ∀ (x : Reg) (s : State),
    (s.idx.toNat + 2 ≤ 0xFFF →
      ∃ t, exec (.ldB x) s = .next t ∧ (t.byteAt s.idx.toNat).toNat = (s.reg x).toNat / 100 ∧
        (t.byteAt (s.idx.toNat + 1)).toNat = (s.reg x).toNat / 10 % 10 ∧
        (t.byteAt (s.idx.toNat + 2)).toNat = (s.reg x).toNat % 10 ∧ KeepsMemoryOutside s.idx.toNat 3 s t ∧
        t.pc = s.pc + 2 ∧ KeepsRegs s t ∧ KeepsIndex s t ∧ KeepsStack s t ∧ KeepsTimers s t ∧ KeepsDisplay s t ∧
        KeepsControl s t ∧ KeepsInputs s t ∧ KeepsRandom s t) ∧
    (0xFFF < s.idx.toNat + 2 →
      exec (.ldB x) s = .next { s with
        run := .halted,
        fault := some
          { kind := .outOfBounds, pc := s.pc, word := some (encode (.ldB x)), info := max s.idx.toNat 0x1000 } })

/-- R121: FX55 stores V0 to V[X], inclusive, at I on; I is unchanged; or it faults before the first store. -/
def Obligations.StoreRegistersResult : Prop :=
  ∀ (x : Reg) (s : State),
    (s.idx.toNat + x.val ≤ 0xFFF →
      ∃ t, exec (.ldMemVx x) s = .next t ∧ (∀ r : Reg, r ≤ x → t.byteAt (s.idx.toNat + r.val) = s.reg r) ∧
        KeepsMemoryOutside s.idx.toNat (x.val + 1) s t ∧ t.pc = s.pc + 2 ∧ KeepsRegs s t ∧ KeepsIndex s t ∧
        KeepsStack s t ∧ KeepsTimers s t ∧ KeepsDisplay s t ∧ KeepsControl s t ∧ KeepsInputs s t ∧ KeepsRandom s t) ∧
    (0xFFF < s.idx.toNat + x.val →
      exec (.ldMemVx x) s = .next { s with
        run := .halted,
        fault := some
          { kind := .outOfBounds, pc := s.pc, word := some (encode (.ldMemVx x)), info := max s.idx.toNat 0x1000 } })

/-- R122: FX65 loads V0 to V[X], inclusive, from I on; I is unchanged; or it faults before the first load. -/
def Obligations.LoadRegistersResult : Prop :=
  ∀ (x : Reg) (s : State),
    (s.idx.toNat + x.val ≤ 0xFFF →
      ∃ t, exec (.ldVxMem x) s = .next t ∧ (∀ r : Reg, r ≤ x → t.reg r = s.byteAt (s.idx.toNat + r.val)) ∧
        (∀ r : Reg, x < r → t.reg r = s.reg r) ∧ t.pc = s.pc + 2 ∧ KeepsAllButRegsPc s t) ∧
    (0xFFF < s.idx.toNat + x.val →
      exec (.ldVxMem x) s = .next { s with
        run := .halted,
        fault := some
          { kind := .outOfBounds, pc := s.pc, word := some (encode (.ldVxMem x)), info := max s.idx.toNat 0x1000 } })

/-- R121, R122: FX55 and then FX65 with the same X and I, those bytes not written between, restores V0 to V[X]. -/
def Obligations.StoreThenLoadRestoresRegisters : Prop :=
  ∀ (x : Reg) (s t v : State), s.idx.toNat + x.val ≤ 0xFFF → exec (.ldMemVx x) s = .next t → KeepsIndex s v →
    (∀ r : Reg, r ≤ x → v.byteAt (s.idx.toNat + r.val) = t.byteAt (s.idx.toNat + r.val)) →
    ∃ u, exec (.ldVxMem x) v = .next u ∧ ∀ r : Reg, r ≤ x → u.reg r = s.reg r

/-- R57, R160: a running core fetches two bytes that FX55 or FX33 stored as they were stored, and runs them. Of the three
bytes FX33 stores, the hundreds and tens spell a word at I and the tens and units one at I + 1. -/
def Obligations.FetchSeesEarlierStores : Prop :=
  (∀ (x r r' : Reg) (s t v : State), s.idx.toNat + x.val ≤ 0xFFF → r' ≤ x → r'.val = r.val + 1 →
    exec (.ldMemVx x) s = .next t → KeepsMemory t v → v.run = .running → v.pc.toNat = s.idx.toNat + r.val →
    step v = exec (decode v.cfg.strictDecode (wordOfBytes (s.reg r) (s.reg r'))) { v with started := true }) ∧
  (∀ (x : Reg) (hundreds tens units : Byte) (s t v : State), s.idx.toNat + 2 ≤ 0xFFF →
    hundreds.toNat = (s.reg x).toNat / 100 → tens.toNat = (s.reg x).toNat / 10 % 10 →
    units.toNat = (s.reg x).toNat % 10 → exec (.ldB x) s = .next t → KeepsMemory t v → v.run = .running →
    (v.pc.toNat = s.idx.toNat →
      step v = exec (decode v.cfg.strictDecode (wordOfBytes hundreds tens)) { v with started := true }) ∧
    (v.pc.toNat = s.idx.toNat + 1 →
      step v = exec (decode v.cfg.strictDecode (wordOfBytes tens units)) { v with started := true }))

/-! ## Keys and timers -/

/-- R123 to R125: the key skips: on the key V[X] names if V[X] ≤ 0xF, else KeyOutOfRange or the low nibble's key, by
`KEY_INDEX_MODE`. -/
def Obligations.KeySkipResults : Prop :=
  ∀ (x : Reg) (s : State) (k : Key), (s.reg x).toNat % 16 = k.val →
    ((s.reg x).toNat ≤ 0xF ∨ s.cfg.keyIndexMode = .lowNibble →
      (∃ t, exec (.skp x) s = .next t ∧ t.pc = (if s.keyDown k then s.pc + 4 else s.pc + 2) ∧ KeepsAllButPc s t) ∧
      (∃ t, exec (.sknp x) s = .next t ∧ t.pc = (if s.keyDown k then s.pc + 2 else s.pc + 4) ∧ KeepsAllButPc s t)) ∧
    (0xF < (s.reg x).toNat ∧ s.cfg.keyIndexMode = .fault →
      exec (.skp x) s = .next { s with
        run := .halted,
        fault := some
          { kind := .keyOutOfRange, pc := s.pc, word := some (encode (.skp x)), info := (s.reg x).toNat } } ∧
      exec (.sknp x) s = .next { s with
        run := .halted,
        fault := some
          { kind := .keyOutOfRange, pc := s.pc, word := some (encode (.sknp x)), info := (s.reg x).toNat } })

/-- R127: FX0A takes the lowest pressed key and goes on, or begins the wait with `pc` unchanged. -/
def Obligations.KeyWaitResult : Prop :=
  ∀ (x : Reg) (s : State),
    (∀ k : Key, s.keyDown k = true → (∀ j : Key, j < k → s.keyDown j = false) →
      ∃ t, exec (.ldVxK x) s = .next t ∧ (t.reg x).toNat = k.val ∧ t.pc = s.pc + 2 ∧ KeepsRegsBut x s t ∧
        KeepsAllButRegsPc s t) ∧
    ((∀ k : Key, s.keyDown k = false) → exec (.ldVxK x) s = .next { s with run := .awaitingKey x })

/-- R126, R129, R130: the timer moves. -/
def Obligations.TimerMoveResults : Prop :=
  ∀ x : Reg, RegisterResult (.ldVxDt x) x (fun s => s.dt) ∧ ∀ s : State,
    (∃ t, exec (.ldDtVx x) s = .next t ∧ t.dt = s.reg x ∧ t.st = s.st ∧ t.pc = s.pc + 2 ∧ KeepsRegs s t ∧
      KeepsMemory s t ∧ KeepsIndex s t ∧ KeepsStack s t ∧ KeepsDisplay s t ∧ KeepsControl s t ∧ KeepsInputs s t ∧
      KeepsRandom s t) ∧
    (∃ t, exec (.ldStVx x) s = .next t ∧ t.st = s.reg x ∧ t.dt = s.dt ∧ t.pc = s.pc + 2 ∧ KeepsRegs s t ∧
      KeepsMemory s t ∧ KeepsIndex s t ∧ KeepsStack s t ∧ KeepsDisplay s t ∧ KeepsControl s t ∧ KeepsInputs s t ∧
      KeepsRandom s t)

/-! ## The host's operations -/

/-- R152: `RESET`, in any state, sets every component to its value; V0-VF and memory to `INIT_V` and `INIT_MEM`. -/
def Obligations.ResetSetsEveryComponent : Prop :=
  ∀ s : State, ∃ t, perform .reset s = .next (t, .done) ∧ t.pc = 0x200 ∧ t.idx = 0 ∧ t.stack = [] ∧ t.dt = 0 ∧
    t.st = 0 ∧ (∀ p : Pixel, Framebuffer.pixel t.fb p = false) ∧ (∀ k : Key, t.keyDown k = false) ∧ t.run = .running ∧
    t.fault = none ∧ t.started = false ∧ t.mem = s.cfg.initMem ∧ t.v = s.cfg.initV ∧ t.cfg = s.cfg

/-- R133, R154, R155: `LOAD` copies a program that fits to 0x200 on and changes nothing else; one that does not fit fails
with ProgramTooLarge, code 5, and the byte count, and changes nothing. R156 refuses a `LOAD` after the first step; that the
model answers it by the refusal `loadAfterStart` is its choice (log 15, DESIGN CHOICE). -/
def Obligations.LoadResult : Prop :=
  ∀ (bytes : List Byte) (s : State),
    (s.started = false → bytes.length + 0x200 ≤ 4096 →
      ∃ t, perform (.load bytes) s = .next (t, .loaded) ∧
        (∀ (j : Nat) (h : j < bytes.length), t.byteAt (0x200 + j) = bytes[j]) ∧
        KeepsMemoryOutside 0x200 bytes.length s t ∧ t.pc = s.pc ∧ KeepsRegs s t ∧ KeepsIndex s t ∧ KeepsStack s t ∧
        KeepsTimers s t ∧ KeepsDisplay s t ∧ KeepsControl s t ∧ KeepsInputs s t ∧ KeepsRandom s t) ∧
    (s.started = false → 4096 < bytes.length + 0x200 →
      perform (.load bytes) s = .next (s, .loadFault .programTooLarge bytes.length) ∧
        Fault.code .programTooLarge = 5) ∧
    (s.started = true → perform (.load bytes) s = .refused .loadAfterStart)

/-- R142: `TICK` decrements both timers, floored at 0, in every run state, and changes nothing else. -/
def Obligations.TickResult : Prop :=
  ∀ s : State, ∃ t, perform .tick s = .next (t, .done) ∧ t.dt.toNat = s.dt.toNat - 1 ∧ t.st.toNat = s.st.toNat - 1 ∧
    t.pc = s.pc ∧ KeepsRegs s t ∧ KeepsMemory s t ∧ KeepsIndex s t ∧ KeepsStack s t ∧ KeepsDisplay s t ∧
    KeepsControl s t ∧ KeepsInputs s t ∧ KeepsRandom s t

/-- R164: a delay reaches 0 after exactly as many `TICK`s, and stays there. -/
def Obligations.DelayRunsOutAfterItsTicks : Prop :=
  ∀ (n : Nat) (s : State), ∃ t replies, performAll (List.replicate n .tick) s = .next (t, replies) ∧
    t.dt.toNat = s.dt.toNat - n ∧ t.st.toNat = s.st.toNat - n ∧ t.pc = s.pc ∧ KeepsRegs s t ∧ KeepsMemory s t ∧
    KeepsControl s t

/-- R143, R144: `KEYS_WRITE` replaces the whole latch and `KEYS_CLEAR` empties it; neither changes anything else. -/
def Obligations.KeyPortResults : Prop :=
  ∀ (k : BitVec 16) (s : State),
    perform (.keysWrite k) s = .next ({ s with key := k }, .done) ∧
    (∃ t, perform .keysClear s = .next (t, .done) ∧ t = { s with key := t.key } ∧ ∀ j : Key, t.keyDown j = false)

/-- R146, R147: the read ports return the 2048 pixels, row-major, and the status, and change nothing. -/
def Obligations.ReadPortResults : Prop :=
  ∀ s : State,
    (∃ bits : List Bool, perform .fbRead s = .next (s, .pixels bits) ∧ bits.length = 2048 ∧
      ∀ p : Pixel, bits[p.val]? = some (Framebuffer.pixel s.fb p)) ∧
    perform .statusRead s = .next (s, .status { run := s.run, fault := s.fault, dt := s.dt, st := s.st })

/-- R145, R162: every frame completes; with `KEY_CLEAR_AT_FRAME_END` no key is pressed after it, and without it the latch
holds the keys that the frame wrote. -/
def Obligations.FrameLeavesNoKeyPressed : Prop :=
  ∀ (keys : BitVec 16) (r : Nat → Byte) (s : State),
    ∃ t replies, frame keys r s = .next (t, replies) ∧ t.cfg = s.cfg ∧
      (s.cfg.keyClearAtFrameEnd = true → ∀ k : Key, t.keyDown k = false) ∧
      (s.cfg.keyClearAtFrameEnd = false → t.key = keys)

/-- R145: a frame leaves the state that its operations leave, issued one by one: `KEYS_WRITE`, `STEPS_PER_FRAME` steps,
`FB_READ`, `TICK`, and `KEYS_CLEAR` under `KEY_CLEAR_AT_FRAME_END`. If no step faults, it has made all its steps and its
replies are theirs; it stops stepping after a fault, and then no step left out would have changed the state (R80). R145 does
not say what a frame returns: that its replies are its steps' results and then its read-out, and no others, is the model's
choice (log 14, DESIGN CHOICE), and the clauses on `frameReplies` rest on it. -/
def Obligations.FrameIsItsOperations : Prop :=
  ∀ (keys : BitVec 16) (r : Nat → Byte) (s : State), ∃ t replies frameReplies,
    performAll ([.keysWrite keys] ++ (List.range s.cfg.stepsPerFrame).map (fun j => .step (r j)) ++ [.fbRead, .tick] ++
      (if s.cfg.keyClearAtFrameEnd then [.keysClear] else [])) s = .next (t, replies) ∧
    frame keys r s = .next (t, frameReplies) ∧ frameReplies.length ≤ s.cfg.stepsPerFrame + 1 ∧
    ((∀ k : Fault, Reply.stepFault k ∉ frameReplies) →
      frameReplies.length = s.cfg.stepsPerFrame + 1 ∧
      replies = [.done] ++ frameReplies ++ (if s.cfg.keyClearAtFrameEnd then [.done, .done] else [.done])) ∧
    (∀ (before after : List Reply) (k : Fault), frameReplies = before ++ [.stepFault k] ++ after → after.length = 1)

/-- R45, R154, R158: after `RESET` and `LOAD`, the first step runs the program's first word, under every parameter. -/
def Obligations.BootRunsTheFirstWord : Prop :=
  ∀ (hi lo : Byte) (rest : List Byte) (s : State), rest.length + 2 + 0x200 ≤ 4096 →
    ∃ t, performAll (boot (hi :: lo :: rest)) s = .next (t, [.done, .loaded]) ∧ t.pc = 0x200 ∧
      step t = exec (decode s.cfg.strictDecode (wordOfBytes hi lo)) { t with started := true }
end

