-- ==== Sys2Proof/Laws/Encoding.lean ====
section
/-! SUPPORT. The fields of a laid-out word are the fields it was laid out from (`30_encoding.md` R64), and the two bytes
of a word spell it (`20_memory.md` R45). -/

namespace Sys2Proof

@[simp] theorem regOfBits_bitsOfReg (x : Reg) : regOfBits (bitsOfReg x) = x := rfl
@[simp] theorem bitsOfReg_regOfBits (b : Nibble) : bitsOfReg (regOfBits b) = b := rfl

theorem append_high {m n : Nat} (a : BitVec m) (b : BitVec n) : (a ++ b).extractLsb' n m = a := by
  apply BitVec.eq_of_getLsbD_eq
  intro i hi
  simp [BitVec.getLsbD_append, hi]

theorem append_low {m n k l : Nat} (a : BitVec m) (b : BitVec n) (h : k + l ≤ n) :
    (a ++ b).extractLsb' k l = b.extractLsb' k l := by
  apply BitVec.eq_of_getLsbD_eq
  intro i hi
  have : k + i < n := by omega
  simp [BitVec.getLsbD_append, hi, this]

theorem append_mid {m n k l : Nat} (a : BitVec m) (b : BitVec n) :
    (a ++ b).extractLsb' (n + k) l = a.extractLsb' k l := by
  apply BitVec.eq_of_getLsbD_eq
  intro i hi
  have h1 : ¬ n + k + i < n := by omega
  have h2 : n + k + i - n = k + i := by omega
  simp [BitVec.getLsbD_append, hi, h1, h2]

theorem extract_all {n : Nat} (b : BitVec n) : b.extractLsb' 0 n = b := by
  apply BitVec.eq_of_getLsbD_eq
  intro i hi
  simp [hi]

@[simp] theorem fieldOp_wordNNN (op : Nibble) (nnn : Addr12) : fieldOp (wordNNN op nnn) = op := append_high op nnn
@[simp] theorem fieldNNN_wordNNN (op : Nibble) (nnn : Addr12) : fieldNNN (wordNNN op nnn) = nnn := by
  rw [fieldNNN, wordNNN, append_low _ _ (by decide), extract_all]

@[simp] theorem fieldOp_wordXNN (op x : Nibble) (nn : Byte) : fieldOp (wordXNN op x nn) = op :=
  append_high op (x ++ nn)
@[simp] theorem fieldXBits_wordXNN (op x : Nibble) (nn : Byte) : fieldXBits (wordXNN op x nn) = x := by
  rw [fieldXBits, wordXNN, append_low op (x ++ nn) (by decide)]
  exact append_high x nn
@[simp] theorem fieldX_wordXNN (op x : Nibble) (nn : Byte) : fieldX (wordXNN op x nn) = regOfBits x := by
  rw [fieldX, fieldXBits_wordXNN]
@[simp] theorem fieldNN_wordXNN (op x : Nibble) (nn : Byte) : fieldNN (wordXNN op x nn) = nn := by
  rw [fieldNN, wordXNN, append_low op (x ++ nn) (by decide), append_low x nn (by decide), extract_all]

@[simp] theorem fieldOp_wordXYN (op x y n : Nibble) : fieldOp (wordXYN op x y n) = op := append_high op (x ++ (y ++ n))
@[simp] theorem fieldXBits_wordXYN (op x y n : Nibble) : fieldXBits (wordXYN op x y n) = x := by
  rw [fieldXBits, wordXYN, append_low op (x ++ (y ++ n)) (by decide)]
  exact append_high x (y ++ n)
@[simp] theorem fieldX_wordXYN (op x y n : Nibble) : fieldX (wordXYN op x y n) = regOfBits x := by
  rw [fieldX, fieldXBits_wordXYN]
@[simp] theorem fieldYBits_wordXYN (op x y n : Nibble) : fieldYBits (wordXYN op x y n) = y := by
  rw [fieldYBits, wordXYN, append_low op (x ++ (y ++ n)) (by decide), append_low x (y ++ n) (by decide)]
  exact append_high y n
@[simp] theorem fieldY_wordXYN (op x y n : Nibble) : fieldY (wordXYN op x y n) = regOfBits y := by
  rw [fieldY, fieldYBits_wordXYN]
@[simp] theorem fieldN_wordXYN (op x y n : Nibble) : fieldN (wordXYN op x y n) = n := by
  rw [fieldN, wordXYN, append_low op (x ++ (y ++ n)) (by decide), append_low x (y ++ n) (by decide),
    append_low y n (by decide), extract_all]

/-- Two neighbouring fields side by side are the field that spans both. -/
theorem extract_append_extract {l : Nat} (w : BitVec l) (k m n : Nat) :
    w.extractLsb' (k + n) m ++ w.extractLsb' k n = w.extractLsb' k (m + n) := by
  apply BitVec.eq_of_getLsbD_eq
  intro i hi
  rw [BitVec.getLsbD_append]
  by_cases h : i < n
  · simp [h, hi]
  · have h1 : i - n < m := by omega
    have h2 : k + n + (i - n) = k + i := by omega
    simp [h, hi, h1, h2]

/-- The fields op and NNN make up the word (R64). -/
theorem wordNNN_fields (w : Word) : wordNNN (fieldOp w) (fieldNNN w) = w :=
  (extract_append_extract w 0 4 12).trans (extract_all w)

/-- The fields op, X and NN make up the word (R64). -/
theorem wordXNN_fields (w : Word) : wordXNN (fieldOp w) (fieldXBits w) (fieldNN w) = w := by
  have h : fieldXBits w ++ fieldNN w = fieldNNN w := extract_append_extract w 0 4 8
  rw [wordXNN, h]
  exact wordNNN_fields w

/-- The fields op, X, Y and N make up the word (R64). -/
theorem wordXYN_fields (w : Word) : wordXYN (fieldOp w) (fieldXBits w) (fieldYBits w) (fieldN w) = w := by
  have h : fieldYBits w ++ fieldN w = fieldNN w := extract_append_extract w 0 4 4
  rw [wordXYN, h]
  exact wordXNN_fields w

/-- The two bytes of a word spell it (R45). -/
theorem wordOfBytes_bytes (w : Word) : wordOfBytes (highByte w) (lowByte w) = w :=
  (extract_append_extract w 0 8 8).trans (extract_all w)

@[simp] theorem highByte_wordOfBytes (a b : Byte) : highByte (wordOfBytes a b) = a := append_high a b
@[simp] theorem lowByte_wordOfBytes (a b : Byte) : lowByte (wordOfBytes a b) = b := by
  rw [lowByte, wordOfBytes, append_low a b (by decide), extract_all]

end Sys2Proof
end

