-- ==== Sys2Proof/Laws/Framebuffer.lean ====
section
/-! SUPPORT. The laws of the framebuffer: a toggle flips its own pixel and no other (`41_display.md` R94), a dark
framebuffer has no lit pixel (R93), and a framebuffer is its pixels. -/

namespace Sys2Proof.Machine

@[simp] theorem Framebuffer.pixel_dark (p : Pixel) : Framebuffer.pixel Framebuffer.dark p = false := by
  simp [Framebuffer.pixel, Framebuffer.dark]

/-- A toggle flips its own pixel and leaves every other (R94). -/
theorem Framebuffer.pixel_toggle (f : Framebuffer) (p q : Pixel) :
    Framebuffer.pixel (Framebuffer.toggle f p) q = (Framebuffer.pixel f q ^^ decide (q = p)) := by
  obtain ⟨p, hp⟩ := p
  obtain ⟨q, hq⟩ := q
  simp only [Framebuffer.pixel, Framebuffer.toggle, Fin.mk.injEq]
  by_cases hr : p / 64 = q / 64
  · simp only [← hr, Vector.getElem_set_self, BitVec.getLsbD_xor, BitVec.getLsbD_twoPow]
    have : q % 64 < 64 := Nat.mod_lt _ (by decide)
    by_cases h : q = p
    · subst h; simp [this]
    · have : ¬ p % 64 = q % 64 := by omega
      simp [h, this]
  · have h : ¬ q = p := fun h => hr (by rw [h])
    rw [Vector.getElem_set_ne _ _ hr]
    simp [h]

/-- Two framebuffers with the same pixels are the same. -/
theorem Framebuffer.ext_pixel (f g : Framebuffer)
    (h : ∀ p : Pixel, Framebuffer.pixel f p = Framebuffer.pixel g p) : f = g := by
  apply Vector.ext
  intro i hi
  apply BitVec.eq_of_getLsbD_eq
  intro j hj
  have hp := h ⟨i * 64 + j, by omega⟩
  have h1 : (i * 64 + j) / 64 = i := by omega
  have h2 : (i * 64 + j) % 64 = j := by omega
  simpa only [Framebuffer.pixel, h1, h2] using hp

/-- One sprite bit at a pixel: what it leaves there, everywhere else, and in `hit` (R94). -/
theorem drawBit_pixel (p : Pixel) (c : Canvas) (q : Pixel) :
    Framebuffer.pixel (drawBit (some p) c).fb q = (Framebuffer.pixel c.fb q ^^ decide (q = p)) :=
  Framebuffer.pixel_toggle c.fb p q

theorem drawBit_hit (p : Pixel) (c : Canvas) :
    (drawBit (some p) c).hit = (c.hit || Framebuffer.pixel c.fb p) := rfl

theorem drawBit_none (c : Canvas) : drawBit none c = c := rfl

end Sys2Proof.Machine
end

