-- ==== Sys2Proof/Laws/State.lean ====
section
/-! SUPPORT. One lemma per field per update of the state, so that no later proof unfolds a record update; and how V[r] and
the byte at an address read after an update. -/

namespace Sys2Proof.Machine

@[simp] theorem State.setMem_cfg (s : State) (m : Memory) : (s.setMem m).cfg = s.cfg := rfl
@[simp] theorem State.setMem_mem (s : State) (m : Memory) : (s.setMem m).mem = m := rfl
@[simp] theorem State.setMem_v (s : State) (m : Memory) : (s.setMem m).v = s.v := rfl
@[simp] theorem State.setMem_idx (s : State) (m : Memory) : (s.setMem m).idx = s.idx := rfl
@[simp] theorem State.setMem_pc (s : State) (m : Memory) : (s.setMem m).pc = s.pc := rfl
@[simp] theorem State.setMem_stack (s : State) (m : Memory) : (s.setMem m).stack = s.stack := rfl
@[simp] theorem State.setMem_dt (s : State) (m : Memory) : (s.setMem m).dt = s.dt := rfl
@[simp] theorem State.setMem_st (s : State) (m : Memory) : (s.setMem m).st = s.st := rfl
@[simp] theorem State.setMem_fb (s : State) (m : Memory) : (s.setMem m).fb = s.fb := rfl
@[simp] theorem State.setMem_key (s : State) (m : Memory) : (s.setMem m).key = s.key := rfl
@[simp] theorem State.setMem_run (s : State) (m : Memory) : (s.setMem m).run = s.run := rfl
@[simp] theorem State.setMem_fault (s : State) (m : Memory) : (s.setMem m).fault = s.fault := rfl
@[simp] theorem State.setMem_started (s : State) (m : Memory) : (s.setMem m).started = s.started := rfl
@[simp] theorem State.setMem_rand (s : State) (m : Memory) : (s.setMem m).rand = s.rand := rfl
@[simp] theorem State.setMem_draws (s : State) (m : Memory) : (s.setMem m).draws = s.draws := rfl
@[simp] theorem State.setMem_reg (s : State) (m : Memory) (r : Reg) : (s.setMem m).reg r = s.reg r := rfl

@[simp] theorem State.setReg_cfg (s : State) (x : Reg) (b : Byte) : (s.setReg x b).cfg = s.cfg := rfl
@[simp] theorem State.setReg_mem (s : State) (x : Reg) (b : Byte) : (s.setReg x b).mem = s.mem := rfl
@[simp] theorem State.setReg_v (s : State) (x : Reg) (b : Byte) : (s.setReg x b).v = s.v.set x.val b x.isLt := rfl
@[simp] theorem State.setReg_idx (s : State) (x : Reg) (b : Byte) : (s.setReg x b).idx = s.idx := rfl
@[simp] theorem State.setReg_pc (s : State) (x : Reg) (b : Byte) : (s.setReg x b).pc = s.pc := rfl
@[simp] theorem State.setReg_stack (s : State) (x : Reg) (b : Byte) : (s.setReg x b).stack = s.stack := rfl
@[simp] theorem State.setReg_dt (s : State) (x : Reg) (b : Byte) : (s.setReg x b).dt = s.dt := rfl
@[simp] theorem State.setReg_st (s : State) (x : Reg) (b : Byte) : (s.setReg x b).st = s.st := rfl
@[simp] theorem State.setReg_fb (s : State) (x : Reg) (b : Byte) : (s.setReg x b).fb = s.fb := rfl
@[simp] theorem State.setReg_key (s : State) (x : Reg) (b : Byte) : (s.setReg x b).key = s.key := rfl
@[simp] theorem State.setReg_run (s : State) (x : Reg) (b : Byte) : (s.setReg x b).run = s.run := rfl
@[simp] theorem State.setReg_fault (s : State) (x : Reg) (b : Byte) : (s.setReg x b).fault = s.fault := rfl
@[simp] theorem State.setReg_started (s : State) (x : Reg) (b : Byte) : (s.setReg x b).started = s.started := rfl
@[simp] theorem State.setReg_rand (s : State) (x : Reg) (b : Byte) : (s.setReg x b).rand = s.rand := rfl
@[simp] theorem State.setReg_draws (s : State) (x : Reg) (b : Byte) : (s.setReg x b).draws = s.draws := rfl
@[simp] theorem State.setReg_byteAt (s : State) (x : Reg) (b : Byte) (a : Nat) : (s.setReg x b).byteAt a = s.byteAt a := rfl

@[simp] theorem State.setIdx_cfg (s : State) (w : Word) : (s.setIdx w).cfg = s.cfg := rfl
@[simp] theorem State.setIdx_mem (s : State) (w : Word) : (s.setIdx w).mem = s.mem := rfl
@[simp] theorem State.setIdx_v (s : State) (w : Word) : (s.setIdx w).v = s.v := rfl
@[simp] theorem State.setIdx_idx (s : State) (w : Word) : (s.setIdx w).idx = w := rfl
@[simp] theorem State.setIdx_pc (s : State) (w : Word) : (s.setIdx w).pc = s.pc := rfl
@[simp] theorem State.setIdx_stack (s : State) (w : Word) : (s.setIdx w).stack = s.stack := rfl
@[simp] theorem State.setIdx_dt (s : State) (w : Word) : (s.setIdx w).dt = s.dt := rfl
@[simp] theorem State.setIdx_st (s : State) (w : Word) : (s.setIdx w).st = s.st := rfl
@[simp] theorem State.setIdx_fb (s : State) (w : Word) : (s.setIdx w).fb = s.fb := rfl
@[simp] theorem State.setIdx_key (s : State) (w : Word) : (s.setIdx w).key = s.key := rfl
@[simp] theorem State.setIdx_run (s : State) (w : Word) : (s.setIdx w).run = s.run := rfl
@[simp] theorem State.setIdx_fault (s : State) (w : Word) : (s.setIdx w).fault = s.fault := rfl
@[simp] theorem State.setIdx_started (s : State) (w : Word) : (s.setIdx w).started = s.started := rfl
@[simp] theorem State.setIdx_rand (s : State) (w : Word) : (s.setIdx w).rand = s.rand := rfl
@[simp] theorem State.setIdx_draws (s : State) (w : Word) : (s.setIdx w).draws = s.draws := rfl
@[simp] theorem State.setIdx_byteAt (s : State) (w : Word) (a : Nat) : (s.setIdx w).byteAt a = s.byteAt a := rfl
@[simp] theorem State.setIdx_reg (s : State) (w : Word) (r : Reg) : (s.setIdx w).reg r = s.reg r := rfl

@[simp] theorem State.setPc_cfg (s : State) (w : Word) : (s.setPc w).cfg = s.cfg := rfl
@[simp] theorem State.setPc_mem (s : State) (w : Word) : (s.setPc w).mem = s.mem := rfl
@[simp] theorem State.setPc_v (s : State) (w : Word) : (s.setPc w).v = s.v := rfl
@[simp] theorem State.setPc_idx (s : State) (w : Word) : (s.setPc w).idx = s.idx := rfl
@[simp] theorem State.setPc_pc (s : State) (w : Word) : (s.setPc w).pc = w := rfl
@[simp] theorem State.setPc_stack (s : State) (w : Word) : (s.setPc w).stack = s.stack := rfl
@[simp] theorem State.setPc_dt (s : State) (w : Word) : (s.setPc w).dt = s.dt := rfl
@[simp] theorem State.setPc_st (s : State) (w : Word) : (s.setPc w).st = s.st := rfl
@[simp] theorem State.setPc_fb (s : State) (w : Word) : (s.setPc w).fb = s.fb := rfl
@[simp] theorem State.setPc_key (s : State) (w : Word) : (s.setPc w).key = s.key := rfl
@[simp] theorem State.setPc_run (s : State) (w : Word) : (s.setPc w).run = s.run := rfl
@[simp] theorem State.setPc_fault (s : State) (w : Word) : (s.setPc w).fault = s.fault := rfl
@[simp] theorem State.setPc_started (s : State) (w : Word) : (s.setPc w).started = s.started := rfl
@[simp] theorem State.setPc_rand (s : State) (w : Word) : (s.setPc w).rand = s.rand := rfl
@[simp] theorem State.setPc_draws (s : State) (w : Word) : (s.setPc w).draws = s.draws := rfl
@[simp] theorem State.setPc_byteAt (s : State) (w : Word) (a : Nat) : (s.setPc w).byteAt a = s.byteAt a := rfl
@[simp] theorem State.setPc_reg (s : State) (w : Word) (r : Reg) : (s.setPc w).reg r = s.reg r := rfl

@[simp] theorem State.setDt_cfg (s : State) (b : Byte) : (s.setDt b).cfg = s.cfg := rfl
@[simp] theorem State.setDt_mem (s : State) (b : Byte) : (s.setDt b).mem = s.mem := rfl
@[simp] theorem State.setDt_v (s : State) (b : Byte) : (s.setDt b).v = s.v := rfl
@[simp] theorem State.setDt_idx (s : State) (b : Byte) : (s.setDt b).idx = s.idx := rfl
@[simp] theorem State.setDt_pc (s : State) (b : Byte) : (s.setDt b).pc = s.pc := rfl
@[simp] theorem State.setDt_stack (s : State) (b : Byte) : (s.setDt b).stack = s.stack := rfl
@[simp] theorem State.setDt_dt (s : State) (b : Byte) : (s.setDt b).dt = b := rfl
@[simp] theorem State.setDt_st (s : State) (b : Byte) : (s.setDt b).st = s.st := rfl
@[simp] theorem State.setDt_fb (s : State) (b : Byte) : (s.setDt b).fb = s.fb := rfl
@[simp] theorem State.setDt_key (s : State) (b : Byte) : (s.setDt b).key = s.key := rfl
@[simp] theorem State.setDt_run (s : State) (b : Byte) : (s.setDt b).run = s.run := rfl
@[simp] theorem State.setDt_fault (s : State) (b : Byte) : (s.setDt b).fault = s.fault := rfl
@[simp] theorem State.setDt_started (s : State) (b : Byte) : (s.setDt b).started = s.started := rfl
@[simp] theorem State.setDt_rand (s : State) (b : Byte) : (s.setDt b).rand = s.rand := rfl
@[simp] theorem State.setDt_draws (s : State) (b : Byte) : (s.setDt b).draws = s.draws := rfl
@[simp] theorem State.setDt_byteAt (s : State) (b : Byte) (a : Nat) : (s.setDt b).byteAt a = s.byteAt a := rfl
@[simp] theorem State.setDt_reg (s : State) (b : Byte) (r : Reg) : (s.setDt b).reg r = s.reg r := rfl

@[simp] theorem State.setSt_cfg (s : State) (b : Byte) : (s.setSt b).cfg = s.cfg := rfl
@[simp] theorem State.setSt_mem (s : State) (b : Byte) : (s.setSt b).mem = s.mem := rfl
@[simp] theorem State.setSt_v (s : State) (b : Byte) : (s.setSt b).v = s.v := rfl
@[simp] theorem State.setSt_idx (s : State) (b : Byte) : (s.setSt b).idx = s.idx := rfl
@[simp] theorem State.setSt_pc (s : State) (b : Byte) : (s.setSt b).pc = s.pc := rfl
@[simp] theorem State.setSt_stack (s : State) (b : Byte) : (s.setSt b).stack = s.stack := rfl
@[simp] theorem State.setSt_dt (s : State) (b : Byte) : (s.setSt b).dt = s.dt := rfl
@[simp] theorem State.setSt_st (s : State) (b : Byte) : (s.setSt b).st = b := rfl
@[simp] theorem State.setSt_fb (s : State) (b : Byte) : (s.setSt b).fb = s.fb := rfl
@[simp] theorem State.setSt_key (s : State) (b : Byte) : (s.setSt b).key = s.key := rfl
@[simp] theorem State.setSt_run (s : State) (b : Byte) : (s.setSt b).run = s.run := rfl
@[simp] theorem State.setSt_fault (s : State) (b : Byte) : (s.setSt b).fault = s.fault := rfl
@[simp] theorem State.setSt_started (s : State) (b : Byte) : (s.setSt b).started = s.started := rfl
@[simp] theorem State.setSt_rand (s : State) (b : Byte) : (s.setSt b).rand = s.rand := rfl
@[simp] theorem State.setSt_draws (s : State) (b : Byte) : (s.setSt b).draws = s.draws := rfl
@[simp] theorem State.setSt_byteAt (s : State) (b : Byte) (a : Nat) : (s.setSt b).byteAt a = s.byteAt a := rfl
@[simp] theorem State.setSt_reg (s : State) (b : Byte) (r : Reg) : (s.setSt b).reg r = s.reg r := rfl

@[simp] theorem State.setRun_cfg (s : State) (q : RunState) : (s.setRun q).cfg = s.cfg := rfl
@[simp] theorem State.setRun_mem (s : State) (q : RunState) : (s.setRun q).mem = s.mem := rfl
@[simp] theorem State.setRun_v (s : State) (q : RunState) : (s.setRun q).v = s.v := rfl
@[simp] theorem State.setRun_idx (s : State) (q : RunState) : (s.setRun q).idx = s.idx := rfl
@[simp] theorem State.setRun_pc (s : State) (q : RunState) : (s.setRun q).pc = s.pc := rfl
@[simp] theorem State.setRun_stack (s : State) (q : RunState) : (s.setRun q).stack = s.stack := rfl
@[simp] theorem State.setRun_dt (s : State) (q : RunState) : (s.setRun q).dt = s.dt := rfl
@[simp] theorem State.setRun_st (s : State) (q : RunState) : (s.setRun q).st = s.st := rfl
@[simp] theorem State.setRun_fb (s : State) (q : RunState) : (s.setRun q).fb = s.fb := rfl
@[simp] theorem State.setRun_key (s : State) (q : RunState) : (s.setRun q).key = s.key := rfl
@[simp] theorem State.setRun_run (s : State) (q : RunState) : (s.setRun q).run = q := rfl
@[simp] theorem State.setRun_fault (s : State) (q : RunState) : (s.setRun q).fault = s.fault := rfl
@[simp] theorem State.setRun_started (s : State) (q : RunState) : (s.setRun q).started = s.started := rfl
@[simp] theorem State.setRun_rand (s : State) (q : RunState) : (s.setRun q).rand = s.rand := rfl
@[simp] theorem State.setRun_draws (s : State) (q : RunState) : (s.setRun q).draws = s.draws := rfl
@[simp] theorem State.setRun_byteAt (s : State) (q : RunState) (a : Nat) : (s.setRun q).byteAt a = s.byteAt a := rfl
@[simp] theorem State.setRun_reg (s : State) (q : RunState) (r : Reg) : (s.setRun q).reg r = s.reg r := rfl

@[simp] theorem State.setStack_cfg (s : State) (k : List Word) : (s.setStack k).cfg = s.cfg := rfl
@[simp] theorem State.setStack_mem (s : State) (k : List Word) : (s.setStack k).mem = s.mem := rfl
@[simp] theorem State.setStack_v (s : State) (k : List Word) : (s.setStack k).v = s.v := rfl
@[simp] theorem State.setStack_idx (s : State) (k : List Word) : (s.setStack k).idx = s.idx := rfl
@[simp] theorem State.setStack_pc (s : State) (k : List Word) : (s.setStack k).pc = s.pc := rfl
@[simp] theorem State.setStack_stack (s : State) (k : List Word) : (s.setStack k).stack = k := rfl
@[simp] theorem State.setStack_dt (s : State) (k : List Word) : (s.setStack k).dt = s.dt := rfl
@[simp] theorem State.setStack_st (s : State) (k : List Word) : (s.setStack k).st = s.st := rfl
@[simp] theorem State.setStack_fb (s : State) (k : List Word) : (s.setStack k).fb = s.fb := rfl
@[simp] theorem State.setStack_key (s : State) (k : List Word) : (s.setStack k).key = s.key := rfl
@[simp] theorem State.setStack_run (s : State) (k : List Word) : (s.setStack k).run = s.run := rfl
@[simp] theorem State.setStack_fault (s : State) (k : List Word) : (s.setStack k).fault = s.fault := rfl
@[simp] theorem State.setStack_started (s : State) (k : List Word) : (s.setStack k).started = s.started := rfl
@[simp] theorem State.setStack_rand (s : State) (k : List Word) : (s.setStack k).rand = s.rand := rfl
@[simp] theorem State.setStack_draws (s : State) (k : List Word) : (s.setStack k).draws = s.draws := rfl
@[simp] theorem State.setStack_byteAt (s : State) (k : List Word) (a : Nat) : (s.setStack k).byteAt a = s.byteAt a := rfl
@[simp] theorem State.setStack_reg (s : State) (k : List Word) (r : Reg) : (s.setStack k).reg r = s.reg r := rfl

@[simp] theorem State.setFb_cfg (s : State) (f : Framebuffer) : (s.setFb f).cfg = s.cfg := rfl
@[simp] theorem State.setFb_mem (s : State) (f : Framebuffer) : (s.setFb f).mem = s.mem := rfl
@[simp] theorem State.setFb_v (s : State) (f : Framebuffer) : (s.setFb f).v = s.v := rfl
@[simp] theorem State.setFb_idx (s : State) (f : Framebuffer) : (s.setFb f).idx = s.idx := rfl
@[simp] theorem State.setFb_pc (s : State) (f : Framebuffer) : (s.setFb f).pc = s.pc := rfl
@[simp] theorem State.setFb_stack (s : State) (f : Framebuffer) : (s.setFb f).stack = s.stack := rfl
@[simp] theorem State.setFb_dt (s : State) (f : Framebuffer) : (s.setFb f).dt = s.dt := rfl
@[simp] theorem State.setFb_st (s : State) (f : Framebuffer) : (s.setFb f).st = s.st := rfl
@[simp] theorem State.setFb_fb (s : State) (f : Framebuffer) : (s.setFb f).fb = f := rfl
@[simp] theorem State.setFb_key (s : State) (f : Framebuffer) : (s.setFb f).key = s.key := rfl
@[simp] theorem State.setFb_run (s : State) (f : Framebuffer) : (s.setFb f).run = s.run := rfl
@[simp] theorem State.setFb_fault (s : State) (f : Framebuffer) : (s.setFb f).fault = s.fault := rfl
@[simp] theorem State.setFb_started (s : State) (f : Framebuffer) : (s.setFb f).started = s.started := rfl
@[simp] theorem State.setFb_rand (s : State) (f : Framebuffer) : (s.setFb f).rand = s.rand := rfl
@[simp] theorem State.setFb_draws (s : State) (f : Framebuffer) : (s.setFb f).draws = s.draws := rfl
@[simp] theorem State.setFb_byteAt (s : State) (f : Framebuffer) (a : Nat) : (s.setFb f).byteAt a = s.byteAt a := rfl
@[simp] theorem State.setFb_reg (s : State) (f : Framebuffer) (r : Reg) : (s.setFb f).reg r = s.reg r := rfl

@[simp] theorem State.start_cfg (s : State) : (s.start).cfg = s.cfg := rfl
@[simp] theorem State.start_mem (s : State) : (s.start).mem = s.mem := rfl
@[simp] theorem State.start_v (s : State) : (s.start).v = s.v := rfl
@[simp] theorem State.start_idx (s : State) : (s.start).idx = s.idx := rfl
@[simp] theorem State.start_pc (s : State) : (s.start).pc = s.pc := rfl
@[simp] theorem State.start_stack (s : State) : (s.start).stack = s.stack := rfl
@[simp] theorem State.start_dt (s : State) : (s.start).dt = s.dt := rfl
@[simp] theorem State.start_st (s : State) : (s.start).st = s.st := rfl
@[simp] theorem State.start_fb (s : State) : (s.start).fb = s.fb := rfl
@[simp] theorem State.start_key (s : State) : (s.start).key = s.key := rfl
@[simp] theorem State.start_run (s : State) : (s.start).run = s.run := rfl
@[simp] theorem State.start_fault (s : State) : (s.start).fault = s.fault := rfl
@[simp] theorem State.start_started (s : State) : (s.start).started = true := rfl
@[simp] theorem State.start_rand (s : State) : (s.start).rand = s.rand := rfl
@[simp] theorem State.start_draws (s : State) : (s.start).draws = s.draws := rfl
@[simp] theorem State.start_byteAt (s : State) (a : Nat) : (s.start).byteAt a = s.byteAt a := rfl
@[simp] theorem State.start_reg (s : State) (r : Reg) : (s.start).reg r = s.reg r := rfl

@[simp] theorem State.advance_cfg (s : State) : (s.advance).cfg = s.cfg := rfl
@[simp] theorem State.advance_mem (s : State) : (s.advance).mem = s.mem := rfl
@[simp] theorem State.advance_v (s : State) : (s.advance).v = s.v := rfl
@[simp] theorem State.advance_idx (s : State) : (s.advance).idx = s.idx := rfl
@[simp] theorem State.advance_pc (s : State) : (s.advance).pc = s.pc + 2 := rfl
@[simp] theorem State.advance_stack (s : State) : (s.advance).stack = s.stack := rfl
@[simp] theorem State.advance_dt (s : State) : (s.advance).dt = s.dt := rfl
@[simp] theorem State.advance_st (s : State) : (s.advance).st = s.st := rfl
@[simp] theorem State.advance_fb (s : State) : (s.advance).fb = s.fb := rfl
@[simp] theorem State.advance_key (s : State) : (s.advance).key = s.key := rfl
@[simp] theorem State.advance_run (s : State) : (s.advance).run = s.run := rfl
@[simp] theorem State.advance_fault (s : State) : (s.advance).fault = s.fault := rfl
@[simp] theorem State.advance_started (s : State) : (s.advance).started = s.started := rfl
@[simp] theorem State.advance_rand (s : State) : (s.advance).rand = s.rand := rfl
@[simp] theorem State.advance_draws (s : State) : (s.advance).draws = s.draws := rfl
@[simp] theorem State.advance_byteAt (s : State) (a : Nat) : (s.advance).byteAt a = s.byteAt a := rfl
@[simp] theorem State.advance_reg (s : State) (r : Reg) : (s.advance).reg r = s.reg r := rfl

@[simp] theorem State.skipIf_cfg (s : State) (c : Bool) : (s.skipIf c).cfg = s.cfg := rfl
@[simp] theorem State.skipIf_mem (s : State) (c : Bool) : (s.skipIf c).mem = s.mem := rfl
@[simp] theorem State.skipIf_v (s : State) (c : Bool) : (s.skipIf c).v = s.v := rfl
@[simp] theorem State.skipIf_idx (s : State) (c : Bool) : (s.skipIf c).idx = s.idx := rfl
@[simp] theorem State.skipIf_pc (s : State) (c : Bool) : (s.skipIf c).pc = if c then s.pc + 4 else s.pc + 2 := rfl
@[simp] theorem State.skipIf_stack (s : State) (c : Bool) : (s.skipIf c).stack = s.stack := rfl
@[simp] theorem State.skipIf_dt (s : State) (c : Bool) : (s.skipIf c).dt = s.dt := rfl
@[simp] theorem State.skipIf_st (s : State) (c : Bool) : (s.skipIf c).st = s.st := rfl
@[simp] theorem State.skipIf_fb (s : State) (c : Bool) : (s.skipIf c).fb = s.fb := rfl
@[simp] theorem State.skipIf_key (s : State) (c : Bool) : (s.skipIf c).key = s.key := rfl
@[simp] theorem State.skipIf_run (s : State) (c : Bool) : (s.skipIf c).run = s.run := rfl
@[simp] theorem State.skipIf_fault (s : State) (c : Bool) : (s.skipIf c).fault = s.fault := rfl
@[simp] theorem State.skipIf_started (s : State) (c : Bool) : (s.skipIf c).started = s.started := rfl
@[simp] theorem State.skipIf_rand (s : State) (c : Bool) : (s.skipIf c).rand = s.rand := rfl
@[simp] theorem State.skipIf_draws (s : State) (c : Bool) : (s.skipIf c).draws = s.draws := rfl
@[simp] theorem State.skipIf_byteAt (s : State) (c : Bool) (a : Nat) : (s.skipIf c).byteAt a = s.byteAt a := rfl
@[simp] theorem State.skipIf_reg (s : State) (c : Bool) (r : Reg) : (s.skipIf c).reg r = s.reg r := rfl

@[simp] theorem State.push_cfg (s : State) (w : Word) : (s.push w).cfg = s.cfg := rfl
@[simp] theorem State.push_mem (s : State) (w : Word) : (s.push w).mem = s.mem := rfl
@[simp] theorem State.push_v (s : State) (w : Word) : (s.push w).v = s.v := rfl
@[simp] theorem State.push_idx (s : State) (w : Word) : (s.push w).idx = s.idx := rfl
@[simp] theorem State.push_pc (s : State) (w : Word) : (s.push w).pc = s.pc := rfl
@[simp] theorem State.push_stack (s : State) (w : Word) : (s.push w).stack = s.stack ++ [w] := rfl
@[simp] theorem State.push_dt (s : State) (w : Word) : (s.push w).dt = s.dt := rfl
@[simp] theorem State.push_st (s : State) (w : Word) : (s.push w).st = s.st := rfl
@[simp] theorem State.push_fb (s : State) (w : Word) : (s.push w).fb = s.fb := rfl
@[simp] theorem State.push_key (s : State) (w : Word) : (s.push w).key = s.key := rfl
@[simp] theorem State.push_run (s : State) (w : Word) : (s.push w).run = s.run := rfl
@[simp] theorem State.push_fault (s : State) (w : Word) : (s.push w).fault = s.fault := rfl
@[simp] theorem State.push_started (s : State) (w : Word) : (s.push w).started = s.started := rfl
@[simp] theorem State.push_rand (s : State) (w : Word) : (s.push w).rand = s.rand := rfl
@[simp] theorem State.push_draws (s : State) (w : Word) : (s.push w).draws = s.draws := rfl
@[simp] theorem State.push_byteAt (s : State) (w : Word) (a : Nat) : (s.push w).byteAt a = s.byteAt a := rfl
@[simp] theorem State.push_reg (s : State) (w : Word) (r : Reg) : (s.push w).reg r = s.reg r := rfl

@[simp] theorem State.pop_cfg (s : State) : (s.pop).cfg = s.cfg := rfl
@[simp] theorem State.pop_mem (s : State) : (s.pop).mem = s.mem := rfl
@[simp] theorem State.pop_v (s : State) : (s.pop).v = s.v := rfl
@[simp] theorem State.pop_idx (s : State) : (s.pop).idx = s.idx := rfl
@[simp] theorem State.pop_pc (s : State) : (s.pop).pc = s.pc := rfl
@[simp] theorem State.pop_stack (s : State) : (s.pop).stack = s.stack.dropLast := rfl
@[simp] theorem State.pop_dt (s : State) : (s.pop).dt = s.dt := rfl
@[simp] theorem State.pop_st (s : State) : (s.pop).st = s.st := rfl
@[simp] theorem State.pop_fb (s : State) : (s.pop).fb = s.fb := rfl
@[simp] theorem State.pop_key (s : State) : (s.pop).key = s.key := rfl
@[simp] theorem State.pop_run (s : State) : (s.pop).run = s.run := rfl
@[simp] theorem State.pop_fault (s : State) : (s.pop).fault = s.fault := rfl
@[simp] theorem State.pop_started (s : State) : (s.pop).started = s.started := rfl
@[simp] theorem State.pop_rand (s : State) : (s.pop).rand = s.rand := rfl
@[simp] theorem State.pop_draws (s : State) : (s.pop).draws = s.draws := rfl
@[simp] theorem State.pop_byteAt (s : State) (a : Nat) : (s.pop).byteAt a = s.byteAt a := rfl
@[simp] theorem State.pop_reg (s : State) (r : Reg) : (s.pop).reg r = s.reg r := rfl

@[simp] theorem State.halt_cfg (s : State) (k : Fault) (w : Option Word) (n : Nat) : (s.halt k w n).cfg = s.cfg := rfl
@[simp] theorem State.halt_mem (s : State) (k : Fault) (w : Option Word) (n : Nat) : (s.halt k w n).mem = s.mem := rfl
@[simp] theorem State.halt_v (s : State) (k : Fault) (w : Option Word) (n : Nat) : (s.halt k w n).v = s.v := rfl
@[simp] theorem State.halt_idx (s : State) (k : Fault) (w : Option Word) (n : Nat) : (s.halt k w n).idx = s.idx := rfl
@[simp] theorem State.halt_pc (s : State) (k : Fault) (w : Option Word) (n : Nat) : (s.halt k w n).pc = s.pc := rfl
@[simp] theorem State.halt_stack (s : State) (k : Fault) (w : Option Word) (n : Nat) : (s.halt k w n).stack = s.stack := rfl
@[simp] theorem State.halt_dt (s : State) (k : Fault) (w : Option Word) (n : Nat) : (s.halt k w n).dt = s.dt := rfl
@[simp] theorem State.halt_st (s : State) (k : Fault) (w : Option Word) (n : Nat) : (s.halt k w n).st = s.st := rfl
@[simp] theorem State.halt_fb (s : State) (k : Fault) (w : Option Word) (n : Nat) : (s.halt k w n).fb = s.fb := rfl
@[simp] theorem State.halt_key (s : State) (k : Fault) (w : Option Word) (n : Nat) : (s.halt k w n).key = s.key := rfl
@[simp] theorem State.halt_run (s : State) (k : Fault) (w : Option Word) (n : Nat) : (s.halt k w n).run = RunState.halted := rfl
@[simp] theorem State.halt_fault (s : State) (k : Fault) (w : Option Word) (n : Nat) : (s.halt k w n).fault = some ⟨k, s.pc, w, n⟩ := rfl
@[simp] theorem State.halt_started (s : State) (k : Fault) (w : Option Word) (n : Nat) : (s.halt k w n).started = s.started := rfl
@[simp] theorem State.halt_rand (s : State) (k : Fault) (w : Option Word) (n : Nat) : (s.halt k w n).rand = s.rand := rfl
@[simp] theorem State.halt_draws (s : State) (k : Fault) (w : Option Word) (n : Nat) : (s.halt k w n).draws = s.draws := rfl
@[simp] theorem State.halt_byteAt (s : State) (k : Fault) (w : Option Word) (n : Nat) (a : Nat) : (s.halt k w n).byteAt a = s.byteAt a := rfl
@[simp] theorem State.halt_reg (s : State) (k : Fault) (w : Option Word) (n : Nat) (r : Reg) : (s.halt k w n).reg r = s.reg r := rfl

@[simp] theorem State.setFlag_cfg (s : State) (c : Bool) : (s.setFlag c).cfg = s.cfg := rfl
@[simp] theorem State.setFlag_mem (s : State) (c : Bool) : (s.setFlag c).mem = s.mem := rfl
@[simp] theorem State.setFlag_v (s : State) (c : Bool) : (s.setFlag c).v = s.v.set Reg.F.val (flagByte c) Reg.F.isLt := rfl
@[simp] theorem State.setFlag_idx (s : State) (c : Bool) : (s.setFlag c).idx = s.idx := rfl
@[simp] theorem State.setFlag_pc (s : State) (c : Bool) : (s.setFlag c).pc = s.pc := rfl
@[simp] theorem State.setFlag_stack (s : State) (c : Bool) : (s.setFlag c).stack = s.stack := rfl
@[simp] theorem State.setFlag_dt (s : State) (c : Bool) : (s.setFlag c).dt = s.dt := rfl
@[simp] theorem State.setFlag_st (s : State) (c : Bool) : (s.setFlag c).st = s.st := rfl
@[simp] theorem State.setFlag_fb (s : State) (c : Bool) : (s.setFlag c).fb = s.fb := rfl
@[simp] theorem State.setFlag_key (s : State) (c : Bool) : (s.setFlag c).key = s.key := rfl
@[simp] theorem State.setFlag_run (s : State) (c : Bool) : (s.setFlag c).run = s.run := rfl
@[simp] theorem State.setFlag_fault (s : State) (c : Bool) : (s.setFlag c).fault = s.fault := rfl
@[simp] theorem State.setFlag_started (s : State) (c : Bool) : (s.setFlag c).started = s.started := rfl
@[simp] theorem State.setFlag_rand (s : State) (c : Bool) : (s.setFlag c).rand = s.rand := rfl
@[simp] theorem State.setFlag_draws (s : State) (c : Bool) : (s.setFlag c).draws = s.draws := rfl
@[simp] theorem State.setFlag_byteAt (s : State) (c : Bool) (a : Nat) : (s.setFlag c).byteAt a = s.byteAt a := rfl

@[simp] theorem State.keysWritten_cfg (s : State) (k : BitVec 16) : (s.keysWritten k).cfg = s.cfg := rfl
@[simp] theorem State.keysWritten_mem (s : State) (k : BitVec 16) : (s.keysWritten k).mem = s.mem := rfl
@[simp] theorem State.keysWritten_v (s : State) (k : BitVec 16) : (s.keysWritten k).v = s.v := rfl
@[simp] theorem State.keysWritten_idx (s : State) (k : BitVec 16) : (s.keysWritten k).idx = s.idx := rfl
@[simp] theorem State.keysWritten_pc (s : State) (k : BitVec 16) : (s.keysWritten k).pc = s.pc := rfl
@[simp] theorem State.keysWritten_stack (s : State) (k : BitVec 16) : (s.keysWritten k).stack = s.stack := rfl
@[simp] theorem State.keysWritten_dt (s : State) (k : BitVec 16) : (s.keysWritten k).dt = s.dt := rfl
@[simp] theorem State.keysWritten_st (s : State) (k : BitVec 16) : (s.keysWritten k).st = s.st := rfl
@[simp] theorem State.keysWritten_fb (s : State) (k : BitVec 16) : (s.keysWritten k).fb = s.fb := rfl
@[simp] theorem State.keysWritten_key (s : State) (k : BitVec 16) : (s.keysWritten k).key = k := rfl
@[simp] theorem State.keysWritten_run (s : State) (k : BitVec 16) : (s.keysWritten k).run = s.run := rfl
@[simp] theorem State.keysWritten_fault (s : State) (k : BitVec 16) : (s.keysWritten k).fault = s.fault := rfl
@[simp] theorem State.keysWritten_started (s : State) (k : BitVec 16) : (s.keysWritten k).started = s.started := rfl
@[simp] theorem State.keysWritten_rand (s : State) (k : BitVec 16) : (s.keysWritten k).rand = s.rand := rfl
@[simp] theorem State.keysWritten_draws (s : State) (k : BitVec 16) : (s.keysWritten k).draws = s.draws := rfl
@[simp] theorem State.keysWritten_byteAt (s : State) (k : BitVec 16) (a : Nat) : (s.keysWritten k).byteAt a = s.byteAt a := rfl
@[simp] theorem State.keysWritten_reg (s : State) (k : BitVec 16) (r : Reg) : (s.keysWritten k).reg r = s.reg r := rfl

@[simp] theorem State.keysCleared_cfg (s : State) : (s.keysCleared).cfg = s.cfg := rfl
@[simp] theorem State.keysCleared_mem (s : State) : (s.keysCleared).mem = s.mem := rfl
@[simp] theorem State.keysCleared_v (s : State) : (s.keysCleared).v = s.v := rfl
@[simp] theorem State.keysCleared_idx (s : State) : (s.keysCleared).idx = s.idx := rfl
@[simp] theorem State.keysCleared_pc (s : State) : (s.keysCleared).pc = s.pc := rfl
@[simp] theorem State.keysCleared_stack (s : State) : (s.keysCleared).stack = s.stack := rfl
@[simp] theorem State.keysCleared_dt (s : State) : (s.keysCleared).dt = s.dt := rfl
@[simp] theorem State.keysCleared_st (s : State) : (s.keysCleared).st = s.st := rfl
@[simp] theorem State.keysCleared_fb (s : State) : (s.keysCleared).fb = s.fb := rfl
@[simp] theorem State.keysCleared_key (s : State) : (s.keysCleared).key = 0 := rfl
@[simp] theorem State.keysCleared_run (s : State) : (s.keysCleared).run = s.run := rfl
@[simp] theorem State.keysCleared_fault (s : State) : (s.keysCleared).fault = s.fault := rfl
@[simp] theorem State.keysCleared_started (s : State) : (s.keysCleared).started = s.started := rfl
@[simp] theorem State.keysCleared_rand (s : State) : (s.keysCleared).rand = s.rand := rfl
@[simp] theorem State.keysCleared_draws (s : State) : (s.keysCleared).draws = s.draws := rfl
@[simp] theorem State.keysCleared_byteAt (s : State) (a : Nat) : (s.keysCleared).byteAt a = s.byteAt a := rfl
@[simp] theorem State.keysCleared_reg (s : State) (r : Reg) : (s.keysCleared).reg r = s.reg r := rfl

@[simp] theorem State.ticked_cfg (s : State) : (s.ticked).cfg = s.cfg := rfl
@[simp] theorem State.ticked_mem (s : State) : (s.ticked).mem = s.mem := rfl
@[simp] theorem State.ticked_v (s : State) : (s.ticked).v = s.v := rfl
@[simp] theorem State.ticked_idx (s : State) : (s.ticked).idx = s.idx := rfl
@[simp] theorem State.ticked_pc (s : State) : (s.ticked).pc = s.pc := rfl
@[simp] theorem State.ticked_stack (s : State) : (s.ticked).stack = s.stack := rfl
@[simp] theorem State.ticked_dt (s : State) : (s.ticked).dt = countDown s.dt := rfl
@[simp] theorem State.ticked_st (s : State) : (s.ticked).st = countDown s.st := rfl
@[simp] theorem State.ticked_fb (s : State) : (s.ticked).fb = s.fb := rfl
@[simp] theorem State.ticked_key (s : State) : (s.ticked).key = s.key := rfl
@[simp] theorem State.ticked_run (s : State) : (s.ticked).run = s.run := rfl
@[simp] theorem State.ticked_fault (s : State) : (s.ticked).fault = s.fault := rfl
@[simp] theorem State.ticked_started (s : State) : (s.ticked).started = s.started := rfl
@[simp] theorem State.ticked_rand (s : State) : (s.ticked).rand = s.rand := rfl
@[simp] theorem State.ticked_draws (s : State) : (s.ticked).draws = s.draws := rfl
@[simp] theorem State.ticked_byteAt (s : State) (a : Nat) : (s.ticked).byteAt a = s.byteAt a := rfl
@[simp] theorem State.ticked_reg (s : State) (r : Reg) : (s.ticked).reg r = s.reg r := rfl

@[simp] theorem State.loaded_cfg (s : State) (bs : List Byte) : (s.loaded bs).cfg = s.cfg := rfl
@[simp] theorem State.loaded_mem (s : State) (bs : List Byte) : (s.loaded bs).mem = s.mem.writeBytes progStart bs := rfl
@[simp] theorem State.loaded_v (s : State) (bs : List Byte) : (s.loaded bs).v = s.v := rfl
@[simp] theorem State.loaded_idx (s : State) (bs : List Byte) : (s.loaded bs).idx = s.idx := rfl
@[simp] theorem State.loaded_pc (s : State) (bs : List Byte) : (s.loaded bs).pc = s.pc := rfl
@[simp] theorem State.loaded_stack (s : State) (bs : List Byte) : (s.loaded bs).stack = s.stack := rfl
@[simp] theorem State.loaded_dt (s : State) (bs : List Byte) : (s.loaded bs).dt = s.dt := rfl
@[simp] theorem State.loaded_st (s : State) (bs : List Byte) : (s.loaded bs).st = s.st := rfl
@[simp] theorem State.loaded_fb (s : State) (bs : List Byte) : (s.loaded bs).fb = s.fb := rfl
@[simp] theorem State.loaded_key (s : State) (bs : List Byte) : (s.loaded bs).key = s.key := rfl
@[simp] theorem State.loaded_run (s : State) (bs : List Byte) : (s.loaded bs).run = s.run := rfl
@[simp] theorem State.loaded_fault (s : State) (bs : List Byte) : (s.loaded bs).fault = s.fault := rfl
@[simp] theorem State.loaded_started (s : State) (bs : List Byte) : (s.loaded bs).started = s.started := rfl
@[simp] theorem State.loaded_rand (s : State) (bs : List Byte) : (s.loaded bs).rand = s.rand := rfl
@[simp] theorem State.loaded_draws (s : State) (bs : List Byte) : (s.loaded bs).draws = s.draws := rfl
@[simp] theorem State.loaded_reg (s : State) (bs : List Byte) (r : Reg) : (s.loaded bs).reg r = s.reg r := rfl

@[simp] theorem State.setMem_byteAt (s : State) (m : Memory) (a : Nat) : (s.setMem m).byteAt a = m.read a := rfl

@[simp] theorem State.loaded_byteAt (s : State) (bs : List Byte) (a : Nat) :
    (s.loaded bs).byteAt a = (s.mem.writeBytes progStart bs).read a := rfl

/-- A register reads back what was last written to it (R14). -/
theorem State.setReg_reg (s : State) (x : Reg) (b : Byte) (r : Reg) :
    (s.setReg x b).reg r = if r = x then b else s.reg r := by
  simp only [State.reg, State.setReg, Vector.get_eq_getElem, Vector.getElem_set, Fin.val_inj, eq_comm (a := x)]

@[simp] theorem State.setReg_reg_same (s : State) (x : Reg) (b : Byte) : (s.setReg x b).reg x = b := by
  simp [State.setReg_reg]

@[simp] theorem State.setReg_reg_other (s : State) (x : Reg) (b : Byte) (r : Reg) (h : r ≠ x) :
    (s.setReg x b).reg r = s.reg r := by
  simp [State.setReg_reg, h]

theorem State.setFlag_reg (s : State) (c : Bool) (r : Reg) :
    (s.setFlag c).reg r = if r = Reg.F then flagByte c else s.reg r := State.setReg_reg s Reg.F _ r

@[simp] theorem State.dropRandom_cfg (s : State) : s.dropRandom.cfg = s.cfg := by
  cases h : s.rand <;> simp [State.dropRandom, h]
@[simp] theorem State.dropRandom_mem (s : State) : s.dropRandom.mem = s.mem := by
  cases h : s.rand <;> simp [State.dropRandom, h]
@[simp] theorem State.dropRandom_v (s : State) : s.dropRandom.v = s.v := by
  cases h : s.rand <;> simp [State.dropRandom, h]
@[simp] theorem State.dropRandom_idx (s : State) : s.dropRandom.idx = s.idx := by
  cases h : s.rand <;> simp [State.dropRandom, h]
@[simp] theorem State.dropRandom_pc (s : State) : s.dropRandom.pc = s.pc := by
  cases h : s.rand <;> simp [State.dropRandom, h]
@[simp] theorem State.dropRandom_stack (s : State) : s.dropRandom.stack = s.stack := by
  cases h : s.rand <;> simp [State.dropRandom, h]
@[simp] theorem State.dropRandom_dt (s : State) : s.dropRandom.dt = s.dt := by
  cases h : s.rand <;> simp [State.dropRandom, h]
@[simp] theorem State.dropRandom_st (s : State) : s.dropRandom.st = s.st := by
  cases h : s.rand <;> simp [State.dropRandom, h]
@[simp] theorem State.dropRandom_fb (s : State) : s.dropRandom.fb = s.fb := by
  cases h : s.rand <;> simp [State.dropRandom, h]
@[simp] theorem State.dropRandom_key (s : State) : s.dropRandom.key = s.key := by
  cases h : s.rand <;> simp [State.dropRandom, h]
@[simp] theorem State.dropRandom_run (s : State) : s.dropRandom.run = s.run := by
  cases h : s.rand <;> simp [State.dropRandom, h]
@[simp] theorem State.dropRandom_fault (s : State) : s.dropRandom.fault = s.fault := by
  cases h : s.rand <;> simp [State.dropRandom, h]
@[simp] theorem State.dropRandom_started (s : State) : s.dropRandom.started = s.started := by
  cases h : s.rand <;> simp [State.dropRandom, h]
@[simp] theorem State.dropRandom_byteAt (s : State) (a : Nat) : s.dropRandom.byteAt a = s.byteAt a := by
  simp [State.byteAt]

@[simp] theorem State.dropRandom_reg (s : State) (r : Reg) : s.dropRandom.reg r = s.reg r := by
  simp [State.reg]

/-- With a byte supplied, it is the one taken, and no draw is made. -/
theorem State.dropRandom_supplied (s : State) (b : Byte) (bs : List Byte) (h : s.rand = b :: bs) :
    s.randomByte = b ∧ s.dropRandom.rand = bs ∧ s.dropRandom.draws = s.draws := by
  simp [State.randomByte, State.dropRandom, h]

/-- With none supplied, the byte is a free draw that no later draw shares. -/
theorem State.dropRandom_free (s : State) (h : s.rand = []) :
    s.randomByte = Config.freeRandom s.draws ∧ s.dropRandom.rand = [] ∧ s.dropRandom.draws = s.draws + 1 := by
  simp [State.randomByte, State.dropRandom, h]

@[simp] theorem State.flagAndResult_cfg (s : State) (x : Reg) (c : Bool) (g : State → Byte) :
    (s.flagAndResult x c g).cfg = s.cfg := by
  cases h : s.cfg.flagOrder <;> simp [State.flagAndResult, h]
@[simp] theorem State.flagAndResult_mem (s : State) (x : Reg) (c : Bool) (g : State → Byte) :
    (s.flagAndResult x c g).mem = s.mem := by
  cases h : s.cfg.flagOrder <;> simp [State.flagAndResult, h]
@[simp] theorem State.flagAndResult_idx (s : State) (x : Reg) (c : Bool) (g : State → Byte) :
    (s.flagAndResult x c g).idx = s.idx := by
  cases h : s.cfg.flagOrder <;> simp [State.flagAndResult, h]
@[simp] theorem State.flagAndResult_pc (s : State) (x : Reg) (c : Bool) (g : State → Byte) :
    (s.flagAndResult x c g).pc = s.pc := by
  cases h : s.cfg.flagOrder <;> simp [State.flagAndResult, h]
@[simp] theorem State.flagAndResult_stack (s : State) (x : Reg) (c : Bool) (g : State → Byte) :
    (s.flagAndResult x c g).stack = s.stack := by
  cases h : s.cfg.flagOrder <;> simp [State.flagAndResult, h]
@[simp] theorem State.flagAndResult_dt (s : State) (x : Reg) (c : Bool) (g : State → Byte) :
    (s.flagAndResult x c g).dt = s.dt := by
  cases h : s.cfg.flagOrder <;> simp [State.flagAndResult, h]
@[simp] theorem State.flagAndResult_st (s : State) (x : Reg) (c : Bool) (g : State → Byte) :
    (s.flagAndResult x c g).st = s.st := by
  cases h : s.cfg.flagOrder <;> simp [State.flagAndResult, h]
@[simp] theorem State.flagAndResult_fb (s : State) (x : Reg) (c : Bool) (g : State → Byte) :
    (s.flagAndResult x c g).fb = s.fb := by
  cases h : s.cfg.flagOrder <;> simp [State.flagAndResult, h]
@[simp] theorem State.flagAndResult_key (s : State) (x : Reg) (c : Bool) (g : State → Byte) :
    (s.flagAndResult x c g).key = s.key := by
  cases h : s.cfg.flagOrder <;> simp [State.flagAndResult, h]
@[simp] theorem State.flagAndResult_run (s : State) (x : Reg) (c : Bool) (g : State → Byte) :
    (s.flagAndResult x c g).run = s.run := by
  cases h : s.cfg.flagOrder <;> simp [State.flagAndResult, h]
@[simp] theorem State.flagAndResult_fault (s : State) (x : Reg) (c : Bool) (g : State → Byte) :
    (s.flagAndResult x c g).fault = s.fault := by
  cases h : s.cfg.flagOrder <;> simp [State.flagAndResult, h]
@[simp] theorem State.flagAndResult_started (s : State) (x : Reg) (c : Bool) (g : State → Byte) :
    (s.flagAndResult x c g).started = s.started := by
  cases h : s.cfg.flagOrder <;> simp [State.flagAndResult, h]
@[simp] theorem State.flagAndResult_rand (s : State) (x : Reg) (c : Bool) (g : State → Byte) :
    (s.flagAndResult x c g).rand = s.rand := by
  cases h : s.cfg.flagOrder <;> simp [State.flagAndResult, h]
@[simp] theorem State.flagAndResult_draws (s : State) (x : Reg) (c : Bool) (g : State → Byte) :
    (s.flagAndResult x c g).draws = s.draws := by
  cases h : s.cfg.flagOrder <;> simp [State.flagAndResult, h]
@[simp] theorem State.flagAndResult_byteAt (s : State) (x : Reg) (c : Bool) (g : State → Byte) (a : Nat) :
    (s.flagAndResult x c g).byteAt a = s.byteAt a := by
  simp [State.byteAt]

/-- What the flag-and-result operation leaves in each register, by the order of its two writes (D10). -/
theorem State.flagAndResult_reg (s : State) (x : Reg) (c : Bool) (g : State → Byte) (r : Reg) :
    (s.flagAndResult x c g).reg r =
      match s.cfg.flagOrder with
      | .asWritten => if r = x then g (s.setFlag c) else if r = Reg.F then flagByte c else s.reg r
      | .flagLast => if r = Reg.F then flagByte c else if r = x then g s else s.reg r := by
  cases h : s.cfg.flagOrder <;> simp only [State.flagAndResult, h, State.setFlag_reg, State.setReg_reg]

end Sys2Proof.Machine
end

