-- ==== Sys2Proof/Laws/Memory.lean ====
section
/-! SUPPORT. The laws of memory: a read after a write, and that every memory operation keeps the canonical form
(`20_memory.md` R52, R54). -/

namespace Sys2Proof.Machine

theorem Memory.read_unlist_other (m : Memory) (a c : Nat) (h : c ≠ a) : (m.unlist a).read c = m.read c := by
  induction m with
  | nil => rfl
  | cons e m ih =>
    obtain ⟨k, b⟩ := e
    by_cases hk : k = a
    · simp [Memory.unlist, Memory.read, ih, hk, h.symm]
    · simp [Memory.unlist, Memory.read, ih, hk]

theorem Memory.read_unlist_same (m : Memory) (a : Nat) : (m.unlist a).read a = unlistedByte := by
  induction m with
  | nil => rfl
  | cons e m ih =>
    obtain ⟨k, b⟩ := e
    by_cases hk : k = a <;> simp [Memory.unlist, Memory.read, ih, hk]

theorem Memory.read_enlist_other (m : Memory) (a c : Nat) (b : Byte) (h : c ≠ a) :
    (m.enlist a b).read c = m.read c := by
  induction m with
  | nil => simp [Memory.enlist, Memory.read, h.symm]
  | cons e m ih =>
    obtain ⟨k, d⟩ := e
    by_cases hk : a < k <;> simp [Memory.enlist, Memory.read, ih, hk, h.symm]

theorem Memory.read_enlist_unlist (m : Memory) (a : Nat) (b : Byte) : ((m.unlist a).enlist a b).read a = b := by
  induction m with
  | nil => simp [Memory.unlist, Memory.enlist, Memory.read]
  | cons e m ih =>
    obtain ⟨k, d⟩ := e
    by_cases hk : k = a
    · simp [Memory.unlist, ih, hk]
    · by_cases ha : a < k <;> simp [Memory.unlist, Memory.enlist, Memory.read, ih, hk, ha]

/-- A read returns the last byte written there, and a write leaves every other address alone (R52). -/
theorem Memory.read_write (m : Memory) (a c : Nat) (b : Byte) :
    (m.write a b).read c = if c = a then b else m.read c := by
  by_cases hb : b = unlistedByte <;> by_cases hc : c = a
  · simp [Memory.write, hb, hc, Memory.read_unlist_same]
  · simp [Memory.write, hb, hc, Memory.read_unlist_other]
  · simp [Memory.write, hb, hc, Memory.read_enlist_unlist]
  · simp [Memory.write, hb, hc, Memory.read_enlist_other, Memory.read_unlist_other]

/-- Bytes stored at rising addresses read back in order; every other address is left alone. -/
theorem Memory.read_writeBytes (m : Memory) (a c : Nat) (bs : List Byte) :
    (m.writeBytes a bs).read c = if a ≤ c ∧ c < a + bs.length then bs.getD (c - a) 0 else m.read c := by
  induction bs generalizing m a with
  | nil =>
    have : ¬ (a ≤ c ∧ c < a + ([] : List Byte).length) := by simp only [List.length_nil]; omega
    rw [if_neg this]; rfl
  | cons b bs ih =>
    simp only [Memory.writeBytes, ih, Memory.read_write, List.length_cons]
    by_cases h1 : c = a
    · subst h1; simp
    · by_cases h2 : a + 1 ≤ c ∧ c < a + 1 + bs.length
      · obtain ⟨n, hn⟩ : ∃ n, c - a = n + 1 := ⟨c - a - 1, by omega⟩
        have hn' : c - (a + 1) = n := by omega
        have h3 : a ≤ c ∧ c < a + (bs.length + 1) := by omega
        rw [if_pos h2, if_pos h3, hn, hn', List.getD_cons_succ]
      · have h3 : ¬ (a ≤ c ∧ c < a + (bs.length + 1)) := by omega
        rw [if_neg h2, if_neg h3, if_neg h1]

theorem Memory.read_writeBytes_outside (m : Memory) (a c : Nat) (bs : List Byte)
    (h : c < a ∨ a + bs.length ≤ c) : (m.writeBytes a bs).read c = m.read c := by
  rw [Memory.read_writeBytes, if_neg (by omega)]

/-! ## The canonical form -/

theorem Memory.wfFrom_mono {lo lo' : Nat} {m : Memory} (h : Memory.wfFrom lo m = true) (hl : lo' ≤ lo) :
    Memory.wfFrom lo' m = true := by
  cases m with
  | nil => rfl
  | cons e m =>
    obtain ⟨k, c⟩ := e
    simp only [Memory.wfFrom, Bool.and_eq_true, decide_eq_true_eq] at h ⊢
    exact ⟨⟨⟨le_trans hl h.1.1.1, h.1.1.2⟩, h.1.2⟩, h.2⟩

theorem Memory.wfFrom_unlist {lo : Nat} {m : Memory} (a : Nat) (h : Memory.wfFrom lo m = true) :
    Memory.wfFrom lo (m.unlist a) = true := by
  induction m generalizing lo with
  | nil => rfl
  | cons e m ih =>
    obtain ⟨k, c⟩ := e
    simp only [Memory.wfFrom, Bool.and_eq_true, decide_eq_true_eq] at h
    by_cases hk : k = a
    · simp only [Memory.unlist, hk, if_true]
      exact Memory.wfFrom_mono (ih h.2) (by omega)
    · simp only [Memory.unlist, hk, if_false, Memory.wfFrom, Bool.and_eq_true, decide_eq_true_eq]
      exact ⟨h.1, ih h.2⟩

theorem Memory.unlist_lacks (m : Memory) (a : Nat) : ∀ e ∈ m.unlist a, e.1 ≠ a := by
  induction m with
  | nil => simp [Memory.unlist]
  | cons e m ih =>
    obtain ⟨k, c⟩ := e
    by_cases hk : k = a
    · simpa [Memory.unlist, hk] using ih
    · simpa [Memory.unlist, hk] using ih

theorem Memory.wfFrom_enlist {lo : Nat} {m : Memory} {a : Nat} {b : Byte} (h : Memory.wfFrom lo m = true)
    (hl : lo ≤ a) (ha : a < memSize) (hb : b ≠ unlistedByte) (hm : ∀ e ∈ m, e.1 ≠ a) :
    Memory.wfFrom lo (m.enlist a b) = true := by
  induction m generalizing lo with
  | nil => simp [Memory.enlist, Memory.wfFrom, hl, hb, ha]
  | cons e m ih =>
    obtain ⟨k, c⟩ := e
    simp only [Memory.wfFrom, Bool.and_eq_true, decide_eq_true_eq] at h
    have hk : k ≠ a := hm (k, c) (by simp)
    by_cases hak : a < k
    · simp only [Memory.enlist, hak, if_true, Memory.wfFrom, Bool.and_eq_true, decide_eq_true_eq, bne_iff_ne]
      exact ⟨⟨⟨hl, ha⟩, hb⟩, ⟨⟨hak, h.1.1.2⟩, by simpa using h.1.2⟩, h.2⟩
    · simp only [Memory.enlist, hak, if_false, Memory.wfFrom, Bool.and_eq_true, decide_eq_true_eq]
      exact ⟨h.1, ih h.2 (by omega) (fun e he => hm e (by simp [he]))⟩

/-- A write inside the address space keeps the canonical form. -/
theorem Memory.wf_write {m : Memory} {a : Nat} (b : Byte) (h : m.wf = true) (ha : a < memSize) :
    (m.write a b).wf = true := by
  by_cases hb : b = unlistedByte
  · simpa [Memory.write, Memory.wf, hb] using Memory.wfFrom_unlist a h
  · simpa [Memory.write, Memory.wf, hb] using
      Memory.wfFrom_enlist (Memory.wfFrom_unlist a h) (Nat.zero_le a) ha hb (Memory.unlist_lacks m a)

/-- Bytes stored inside the address space keep the canonical form. -/
theorem Memory.wf_writeBytes {m : Memory} {a : Nat} (bs : List Byte) (h : m.wf = true)
    (ha : a + bs.length ≤ memSize) : (m.writeBytes a bs).wf = true := by
  induction bs generalizing m a with
  | nil => exact h
  | cons b bs ih =>
    simp only [List.length_cons] at ha
    exact ih (Memory.wf_write b h (by omega)) (by omega)

/-- A word stored inside the address space keeps the canonical form. -/
theorem Memory.wf_writeWord {m : Memory} {a : Nat} (w : Word) (h : m.wf = true) (ha : a + 2 ≤ memSize) :
    (m.writeWord a w).wf = true := Memory.wf_writeBytes _ h ha

theorem reset_memory_wf : State.reset.mem.wf = true := by decide

end Sys2Proof.Machine
end

