-- ==== Sys2Proof/Laws/Ops.lean ====
section
/-! SUPPORT. For each shared operation, what it can do, said once: a fault, a guarded memory effect, a key skip, the
key-wait poll, a step. Later proofs cite these. -/

namespace Sys2Proof.Machine

/-- Taking a fault: the next state holds the record, is halted, and is otherwise the state before (R134 to R136). -/
theorem raise_next (k : Fault) (w : Option Word) (n : Nat) (s t : State) (h : raise k w n s = .next t) :
    t = s.halt k w n := by
  simpa [raise] using h.symm

/-- A guarded memory instruction: its effect when the range lies in the address space, else the fault (R49). -/
theorem withDataRange_cases (w : Word) (n : Nat) (s e t : State) (h : withDataRange w n s e = .next t) :
    (s.dataInRange n = true ∧ t = e) ∨
      (s.dataInRange n = false ∧ t = s.halt .outOfBounds (some w) (firstOutside s.idx)) := by
  unfold withDataRange at h
  split at h
  · rename_i hr
    exact .inl ⟨hr, by simpa using h.symm⟩
  · rename_i hr
    exact .inr ⟨by simpa using hr, raise_next _ _ _ _ _ h⟩

/-- The bound of R49 in numbers. -/
theorem dataInRange_iff (s : State) (n : Nat) :
    s.dataInRange n = true ↔ n = 0 ∨ s.idx.toNat + n ≤ 4096 := by
  simp [State.dataInRange]

/-- The bound of R48 in numbers. -/
theorem fetchInRange_iff (s : State) : s.fetchInRange = true ↔ s.pc.toNat + 1 < 4096 := by
  simp [State.fetchInRange]

/-- A key skip: a skip on the key V[x] names, or KeyOutOfRange (R123 to R125). -/
theorem keySkip_cases (w : Word) (x : Reg) (wanted : Bool) (s t : State) (h : keySkip w x wanted s = .next t) :
    (∃ k, keyIndex s.cfg.keyIndexMode (s.reg x) = some k ∧ t = s.skipIf (s.keyDown k == wanted)) ∨
      (keyIndex s.cfg.keyIndexMode (s.reg x) = none ∧
        t = s.halt .keyOutOfRange (some w) (s.reg x).toNat) := by
  unfold keySkip at h
  split at h
  · rename_i hk
    exact .inr ⟨hk, raise_next _ _ _ _ _ h⟩
  · rename_i k hk
    exact .inl ⟨k, hk, by simpa using h.symm⟩

/-- A byte up to 0xF is its own key index (R125). -/
theorem keyIndex_low (mode : KeyIndexMode) (b : Byte) (h : b.toNat < 16) : keyIndex mode b = some ⟨b.toNat, h⟩ := by
  simp [keyIndex, h]

/-- A byte above 0xF has no key index under `Fault` (R125). -/
theorem keyIndex_fault (b : Byte) (h : ¬ b.toNat < 16) : keyIndex .fault b = none := by
  simp [keyIndex, h]

/-- There is no key index only above 0xF and under `Fault` (R125). -/
theorem keyIndex_none_iff (mode : KeyIndexMode) (b : Byte) :
    keyIndex mode b = none ↔ mode = .fault ∧ 16 ≤ b.toNat := by
  unfold keyIndex
  split
  · simp; omega
  · cases mode <;> simp
    omega

/-- The lowest pressed key: it is pressed, and no lower one is (R127). -/
theorem lowestKey_some (latch : BitVec 16) (k : Nat) (h : lowestKey latch = some k) :
    k < 16 ∧ latch.getLsbD k = true ∧ ∀ j < k, latch.getLsbD j = false := by
  rw [lowestKey, List.find?_range_eq_some] at h
  exact ⟨by simpa using h.2.1, by simpa using h.1, fun j hj => by simpa using h.2.2 j hj⟩

/-- No lowest key: no key is pressed (R127). -/
theorem lowestKey_none (latch : BitVec 16) (h : lowestKey latch = none) : ∀ k, latch.getLsbD k = false := by
  intro k
  by_cases hk : k < 16
  · rw [lowestKey, List.find?_eq_none] at h
    simpa using h k (by simpa using hk)
  · exact BitVec.getLsbD_of_ge _ _ (by omega)

/-- The key-wait poll: the lowest pressed key ends the wait, else nothing changes (R128). -/
theorem keyWaitPoll_cases (x : Reg) (s t : State) (h : keyWaitPoll x s = .next t) :
    (∃ k, lowestKey s.key = some k ∧ t = ((s.setReg x (BitVec.ofNat 8 k)).setRun .running).advance) ∨
      (lowestKey s.key = none ∧ t = s) := by
  unfold keyWaitPoll at h
  split at h
  · rename_i k hk
    exact .inl ⟨k, hk, by simpa using h.symm⟩
  · rename_i hk
    exact .inr ⟨hk, by simpa using h.symm⟩

/-- The top of a pushed stack is what was pushed (R31). -/
@[simp] theorem State.top_push (s : State) (w : Word) : (s.push w).top = some w := by simp [State.top]

/-- A pop undoes a push (R31). -/
@[simp] theorem State.pop_push (s : State) (w : Word) : (s.push w).pop.stack = s.stack := by simp

/-- A loaded register file (R122). -/
theorem State.loadedRegs_get (s : State) (x r : Reg) :
    (s.loadedRegs x).get r = if r.val ≤ x.val then s.byteAt (s.idx.toNat + r.val) else s.reg r := by
  simp [State.loadedRegs, Vector.get_eq_getElem]

/-- FX55 stores X + 1 bytes (R121). -/
@[simp] theorem State.regsUpTo_length (s : State) (x : Reg) : (s.regsUpTo x).length = x.val + 1 := by
  have := x.isLt
  simp only [State.regsUpTo, List.length_take, Vector.length_toList]
  omega

/-- The i-th byte FX55 stores is V[i] (R121). -/
theorem State.regsUpTo_getD (s : State) (x r : Reg) (h : r.val ≤ x.val) : (s.regsUpTo x).getD r.val 0 = s.reg r := by
  have hr := r.isLt
  have : r.val < x.val + 1 := by omega
  simp [State.regsUpTo, State.reg, Vector.get_eq_getElem, List.getD_eq_getElem?_getD, this]

@[simp] theorem decimalDigits_length (b : Byte) : (decimalDigits b).length = 3 := rfl

end Sys2Proof.Machine
end

