-- ==== Sys2Proof/Laws/PerInstr.lean ====
section
/-! SUPPORT. Statements about every instruction as syntax, one lemma per constructor. -/

namespace Sys2Proof.Laws.MatchesItsRow

/-- The word of a well-formed instruction matches the row of R66 it stands for, under the mask of its `STRICT_DECODE`. -/
def Statement (i : Instr) : Prop :=
  ∀ strict : Bool, i.wf strict = true → ∀ n, i.rowNumber = some n →
    ∀ row, opcodeTable[n - 1]? = some row → row.matchesWord strict (encode i) = true

theorem of_row {i : Instr} (k : Nat) (row : OpcodeRow) (hk : i.rowNumber = some k)
    (hrow : opcodeTable[k - 1]? = some row)
    (h : ∀ strict : Bool, i.wf strict = true → row.matchesWord strict (encode i) = true) : Statement i := by
  intro strict hwf n hn row' hrow'
  obtain rfl : k = n := Option.some.inj (hk.symm.trans hn)
  obtain rfl : row = row' := Option.some.inj (hrow.symm.trans hrow')
  exact h strict hwf

theorem and_nibble (n : Nibble) : n &&& 15#4 = n := BitVec.and_allOnes

theorem and_byte (b : Byte) : b &&& 255#8 = b := BitVec.and_allOnes

theorem maskNNN (op : Nibble) (nnn : Addr12) : wordNNN op nnn &&& 0xF000 = wordNNN op 0 := by
  rw [wordNNN, show (0xF000 : Word) = (0xF : Nibble) ++ (0 : Addr12) by decide, BitVec.and_append]
  simp [wordNNN, and_nibble]

theorem maskXNN (op x : Nibble) (nn : Byte) : wordXNN op x nn &&& 0xF000 = wordXNN op 0 0 := by
  rw [wordXNN, show (0xF000 : Word) = (0xF : Nibble) ++ ((0 : Nibble) ++ (0 : Byte)) by decide, BitVec.and_append,
    BitVec.and_append]
  simp [wordXNN, and_nibble]

theorem maskXNN_nn (op x : Nibble) (nn : Byte) : wordXNN op x nn &&& 0xF0FF = wordXNN op 0 nn := by
  rw [wordXNN, show (0xF0FF : Word) = (0xF : Nibble) ++ ((0 : Nibble) ++ (0xFF : Byte)) by decide, BitVec.and_append,
    BitVec.and_append]
  simp [wordXNN, and_nibble, and_byte]

theorem maskXYN (op x y n : Nibble) : wordXYN op x y n &&& 0xF000 = wordXYN op 0 0 0 := by
  rw [wordXYN, show (0xF000 : Word) = (0xF : Nibble) ++ ((0 : Nibble) ++ ((0 : Nibble) ++ (0 : Nibble))) by decide,
    BitVec.and_append, BitVec.and_append, BitVec.and_append]
  simp [wordXYN, and_nibble]

theorem maskXYN_n (op x y n : Nibble) : wordXYN op x y n &&& 0xF00F = wordXYN op 0 0 n := by
  rw [wordXYN, show (0xF00F : Word) = (0xF : Nibble) ++ ((0 : Nibble) ++ ((0 : Nibble) ++ (0xF : Nibble))) by decide,
    BitVec.and_append, BitVec.and_append, BitVec.and_append]
  simp [wordXYN, and_nibble]

theorem maskAll (w : Word) : w &&& 0xFFFF = w := by
  rw [show (0xFFFF : Word) = BitVec.allOnes 16 by decide, BitVec.and_allOnes]

theorem fixed_strict {n : Nibble} (h : nibbleFixed true n = true) : n = 0 := by simpa [nibbleFixed] using h

theorem cls (x : Nibble) : Statement (.cls x) :=
  of_row 1 _ rfl rfl <| by
    intro strict h
    cases strict
    · simp only [OpcodeRow.matchesWord, encode, if_neg Bool.false_ne_true, maskXNN_nn]; decide
    · rw [fixed_strict h]; decide

theorem ret (x : Nibble) : Statement (.ret x) :=
  of_row 2 _ rfl rfl <| by
    intro strict h
    cases strict
    · simp only [OpcodeRow.matchesWord, encode, if_neg Bool.false_ne_true, maskXNN_nn]; decide
    · rw [fixed_strict h]; decide

theorem jp (nnn : Addr12) : Statement (.jp nnn) :=
  of_row 3 _ rfl rfl <| by
    intro strict _; simp only [OpcodeRow.matchesWord, encode, ite_self, maskNNN]; decide

theorem call (nnn : Addr12) : Statement (.call nnn) :=
  of_row 4 _ rfl rfl <| by
    intro strict _; simp only [OpcodeRow.matchesWord, encode, ite_self, maskNNN]; decide

theorem seByte (x : Reg) (nn : Byte) : Statement (.seByte x nn) :=
  of_row 5 _ rfl rfl <| by
    intro strict _; simp only [OpcodeRow.matchesWord, encode, ite_self, maskXNN]; decide

theorem sneByte (x : Reg) (nn : Byte) : Statement (.sneByte x nn) :=
  of_row 6 _ rfl rfl <| by
    intro strict _; simp only [OpcodeRow.matchesWord, encode, ite_self, maskXNN]; decide

theorem seReg (x : Reg) (y : Reg) (n : Nibble) : Statement (.seReg x y n) :=
  of_row 7 _ rfl rfl <| by
    intro strict h
    cases strict
    · simp only [OpcodeRow.matchesWord, encode, if_neg Bool.false_ne_true, maskXYN]; decide
    · rw [fixed_strict h]; simp only [OpcodeRow.matchesWord, encode, if_true, maskXYN_n]; decide

theorem ldByte (x : Reg) (nn : Byte) : Statement (.ldByte x nn) :=
  of_row 8 _ rfl rfl <| by
    intro strict _; simp only [OpcodeRow.matchesWord, encode, ite_self, maskXNN]; decide

theorem addByte (x : Reg) (nn : Byte) : Statement (.addByte x nn) :=
  of_row 9 _ rfl rfl <| by
    intro strict _; simp only [OpcodeRow.matchesWord, encode, ite_self, maskXNN]; decide

theorem ldReg (x : Reg) (y : Reg) : Statement (.ldReg x y) :=
  of_row 10 _ rfl rfl <| by
    intro strict _; simp only [OpcodeRow.matchesWord, encode, ite_self, maskXYN_n]; decide

theorem orReg (x : Reg) (y : Reg) : Statement (.orReg x y) :=
  of_row 11 _ rfl rfl <| by
    intro strict _; simp only [OpcodeRow.matchesWord, encode, ite_self, maskXYN_n]; decide

theorem andReg (x : Reg) (y : Reg) : Statement (.andReg x y) :=
  of_row 12 _ rfl rfl <| by
    intro strict _; simp only [OpcodeRow.matchesWord, encode, ite_self, maskXYN_n]; decide

theorem xorReg (x : Reg) (y : Reg) : Statement (.xorReg x y) :=
  of_row 13 _ rfl rfl <| by
    intro strict _; simp only [OpcodeRow.matchesWord, encode, ite_self, maskXYN_n]; decide

theorem addReg (x : Reg) (y : Reg) : Statement (.addReg x y) :=
  of_row 14 _ rfl rfl <| by
    intro strict _; simp only [OpcodeRow.matchesWord, encode, ite_self, maskXYN_n]; decide

theorem subReg (x : Reg) (y : Reg) : Statement (.subReg x y) :=
  of_row 15 _ rfl rfl <| by
    intro strict _; simp only [OpcodeRow.matchesWord, encode, ite_self, maskXYN_n]; decide

theorem shr (x : Reg) (y : Reg) : Statement (.shr x y) :=
  of_row 16 _ rfl rfl <| by
    intro strict _; simp only [OpcodeRow.matchesWord, encode, ite_self, maskXYN_n]; decide

theorem subnReg (x : Reg) (y : Reg) : Statement (.subnReg x y) :=
  of_row 17 _ rfl rfl <| by
    intro strict _; simp only [OpcodeRow.matchesWord, encode, ite_self, maskXYN_n]; decide

theorem shl (x : Reg) (y : Reg) : Statement (.shl x y) :=
  of_row 18 _ rfl rfl <| by
    intro strict _; simp only [OpcodeRow.matchesWord, encode, ite_self, maskXYN_n]; decide

theorem sneReg (x : Reg) (y : Reg) (n : Nibble) : Statement (.sneReg x y n) :=
  of_row 19 _ rfl rfl <| by
    intro strict h
    cases strict
    · simp only [OpcodeRow.matchesWord, encode, if_neg Bool.false_ne_true, maskXYN]; decide
    · rw [fixed_strict h]; simp only [OpcodeRow.matchesWord, encode, if_true, maskXYN_n]; decide

theorem ldI (nnn : Addr12) : Statement (.ldI nnn) :=
  of_row 20 _ rfl rfl <| by
    intro strict _; simp only [OpcodeRow.matchesWord, encode, ite_self, maskNNN]; decide

theorem jpV0 (nnn : Addr12) : Statement (.jpV0 nnn) :=
  of_row 21 _ rfl rfl <| by
    intro strict _; simp only [OpcodeRow.matchesWord, encode, ite_self, maskNNN]; decide

theorem rnd (x : Reg) (nn : Byte) : Statement (.rnd x nn) :=
  of_row 22 _ rfl rfl <| by
    intro strict _; simp only [OpcodeRow.matchesWord, encode, ite_self, maskXNN]; decide

theorem drw (x : Reg) (y : Reg) (n : Nibble) : Statement (.drw x y n) :=
  of_row 23 _ rfl rfl <| by
    intro strict _; simp only [OpcodeRow.matchesWord, encode, ite_self, maskXYN]; decide

theorem skp (x : Reg) : Statement (.skp x) :=
  of_row 24 _ rfl rfl <| by
    intro strict _; simp only [OpcodeRow.matchesWord, encode, ite_self, maskXNN_nn]; decide

theorem sknp (x : Reg) : Statement (.sknp x) :=
  of_row 25 _ rfl rfl <| by
    intro strict _; simp only [OpcodeRow.matchesWord, encode, ite_self, maskXNN_nn]; decide

theorem ldVxDt (x : Reg) : Statement (.ldVxDt x) :=
  of_row 26 _ rfl rfl <| by
    intro strict _; simp only [OpcodeRow.matchesWord, encode, ite_self, maskXNN_nn]; decide

theorem ldVxK (x : Reg) : Statement (.ldVxK x) :=
  of_row 27 _ rfl rfl <| by
    intro strict _; simp only [OpcodeRow.matchesWord, encode, ite_self, maskXNN_nn]; decide

theorem ldDtVx (x : Reg) : Statement (.ldDtVx x) :=
  of_row 28 _ rfl rfl <| by
    intro strict _; simp only [OpcodeRow.matchesWord, encode, ite_self, maskXNN_nn]; decide

theorem ldStVx (x : Reg) : Statement (.ldStVx x) :=
  of_row 29 _ rfl rfl <| by
    intro strict _; simp only [OpcodeRow.matchesWord, encode, ite_self, maskXNN_nn]; decide

theorem addI (x : Reg) : Statement (.addI x) :=
  of_row 30 _ rfl rfl <| by
    intro strict _; simp only [OpcodeRow.matchesWord, encode, ite_self, maskXNN_nn]; decide

theorem ldB (x : Reg) : Statement (.ldB x) :=
  of_row 31 _ rfl rfl <| by
    intro strict _; simp only [OpcodeRow.matchesWord, encode, ite_self, maskXNN_nn]; decide

theorem ldMemVx (x : Reg) : Statement (.ldMemVx x) :=
  of_row 32 _ rfl rfl <| by
    intro strict _; simp only [OpcodeRow.matchesWord, encode, ite_self, maskXNN_nn]; decide

theorem ldVxMem (x : Reg) : Statement (.ldVxMem x) :=
  of_row 33 _ rfl rfl <| by
    intro strict _; simp only [OpcodeRow.matchesWord, encode, ite_self, maskXNN_nn]; decide

/-- An unrecognized word stands for no row. -/
theorem dw (w : Word) : Statement (.dw w) := fun _ _ _ hn => nomatch hn

end Sys2Proof.Laws.MatchesItsRow
end

