-- ==== Sys2Proof/Laws/Step.lean ====
section
/-! SUPPORT. What one step can do (`40_execution_cycle.md` R79), said once, and what `STEP(r)`, `LOAD` and a frame can
do. -/

namespace Sys2Proof.Machine

/-- A step of a halted core (R80). -/
theorem step_halted (s : State) (h : s.run = .halted) : step s = .next s := by simp [step, h]

/-- A step of a waiting core (R81). -/
theorem step_awaiting (s : State) (x : Reg) (h : s.run = .awaitingKey x) : step s = keyWaitPoll x s.start := by
  simp [step, h]

/-- A step of a running core that can fetch (R82 to R84). -/
theorem step_running (s : State) (h : s.run = .running) (hf : s.fetchInRange = true) :
    step s = exec (decode s.cfg.strictDecode s.fetchWord) s.start := by simp [step, h, hf]

/-- A step of a running core that cannot fetch (R48, R82). -/
theorem step_fetch_fault (s : State) (h : s.run = .running) (hf : s.fetchInRange = false) :
    step s = raise .outOfBounds none (firstOutside s.pc) s.start := by simp [step, h, hf]

/-- Everything a step can do. -/
theorem step_cases (s t : State) (h : step s = .next t) :
    (s.run = .halted ∧ t = s) ∨
    (∃ x, s.run = .awaitingKey x ∧ keyWaitPoll x s.start = .next t) ∨
    (s.run = .running ∧ s.fetchInRange = true ∧ exec (decode s.cfg.strictDecode s.fetchWord) s.start = .next t) ∨
    (s.run = .running ∧ s.fetchInRange = false ∧ t = s.start.halt .outOfBounds none (firstOutside s.pc)) := by
  cases hr : s.run with
  | halted => exact .inl ⟨rfl, by simpa [step, hr] using h.symm⟩
  | awaitingKey x => exact .inr (.inl ⟨x, rfl, by rwa [step_awaiting s x hr] at h⟩)
  | running =>
    cases hf : s.fetchInRange with
    | true => exact .inr (.inr (.inl ⟨rfl, rfl, by rwa [step_running s hr hf] at h⟩))
    | false =>
      rw [step_fetch_fault s hr hf] at h
      exact .inr (.inr (.inr ⟨rfl, rfl, raise_next _ _ _ _ _ h⟩))

/-! ## The host's operations -/

/-- `STEP(r)` is a step with `r` as its random byte; the state after it keeps the host's bytes (R79, R90). -/
theorem stepWithByte_next (r : Byte) (s t : State) (h : step { s with rand := [r] } = .next t) :
    stepWithByte r s = .next ({ t with rand := s.rand }, t.stepReply) := by simp [stepWithByte, h]

/-- `STEP(r)` of a halted core (R80). -/
theorem stepWithByte_halted (r : Byte) (s : State) (h : s.run = .halted) :
    stepWithByte r s = .next (s, s.stepReply) :=
  stepWithByte_next r s { s with rand := [r] } (step_halted _ h)

/-- Only a halted core replies with a fault (R88). -/
theorem stepReply_fault (s : State) (k : Fault) (h : s.stepReply = .stepFault k) : s.run = .halted := by
  unfold State.stepReply at h
  split at h <;> first | assumption | contradiction

/-- `LOAD` before the first step of a program that fits (R154). -/
theorem perform_load_fits (bytes : List Byte) (s : State) (h : s.started = false)
    (hf : programFits bytes.length = true) : perform (.load bytes) s = .next (s.loaded bytes, .loaded) := by
  simp [perform, h, hf]

/-- `LOAD` before the first step of a program that does not fit (R133, R155). -/
theorem perform_load_too_large (bytes : List Byte) (s : State) (h : s.started = false)
    (hf : programFits bytes.length = false) :
    perform (.load bytes) s = .next (s, .loadFault .programTooLarge bytes.length) := by
  simp [perform, h, hf]

/-- A frame makes `STEPS_PER_FRAME` steps unless a fault ends it (R145). -/
@[simp] theorem frameBytes_length (c : Config) (r : Nat → Byte) : (frameBytes c r).length = c.stepsPerFrame := by
  simp [frameBytes]

/-- A frame completes where its steps do, and ends with the read-out, `TICK` and the latch clear (R145). -/
theorem frame_next (keys : BitVec 16) (r : Nat → Byte) (s t : State) (reps : List Reply)
    (h : frameSteps (frameBytes s.cfg r) (s.keysWritten keys) = .next (t, reps)) :
    frame keys r s = .next (t.frameEnded, reps ++ [.pixels t.pixelBits]) := by simp [frame, h]

end Sys2Proof.Machine
end

