-- ==== Sys2Proof/Tests/Slice0.lean ====
section
/-! SUPPORT. The model's own tests. Expected values come from the worked examples and vectors of `95_test_vectors.md`
(named beside each test) and from the patterns of `30_encoding.md` R66. -/

namespace Sys2Proof.Tests

open Sys2Proof.Machine

/-! ## Helpers -/

/-- The base state of `95_test_vectors.md` with a word at `pc`. -/
abbrev withWord (w : Nat) (s : State := State.reset) : State := s.withFetchWord 16 w

/-- One step answers a next state of which `p` holds. -/
def after (s : State) (p : State → Bool) : Bool :=
  match step s with
  | .next t => p t
  | _ => false

/-- One host operation answers a next state and reply of which `p` holds. -/
def afterOp (op : HostOp) (s : State) (p : State → Reply → Bool) : Bool :=
  match perform op s with
  | .next (t, r) => p t r
  | _ => false

abbrev withConfig (c : Config) : State := State.initial c
abbrev flagLast : State := withConfig { Config.default with flagOrder := .flagLast }
abbrev depth12 : State := withConfig { Config.default with stackDepth := 12 }
abbrev wrap12 : State := withConfig { Config.default with indexWrap := .bits12 }
abbrev lowNibble : State := withConfig { Config.default with keyIndexMode := .lowNibble }
abbrev clipped : State := withConfig { Config.default with spriteEdge := .clip }
abbrev torus : State := withConfig { Config.default with spriteEdge := .torusWrap }

/-- The pixel (x, y). -/
abbrev px (x y : Nat) : Pixel := Fin.ofNat 2048 (y * 64 + x)

/-- Whether pixel (x, y) is lit. -/
abbrev lit (s : State) (x y : Nat) : Bool := Framebuffer.pixel s.fb (px x y)

abbrev halted (s : State) (k : Fault) (pc : Word) (w : Option Word) (info : Nat) : Bool :=
  s.run == .halted && s.fault == some ⟨k, pc, w, info⟩

/-! ## Decoding: one word of each row, written out from its pattern (R66) -/

theorem test_decode_cls : decode true 0b0000000011100000 = .cls 0 := by decide
theorem test_decode_ret : decode true 0b0000000011101110 = .ret 0 := by decide
theorem test_decode_jp : decode true 0b0001001000110100 = .jp 0x234 := by decide
theorem test_decode_call : decode true 0b0010111111111110 = .call 0xFFE := by decide
theorem test_decode_seByte : decode true 0b0011001101000010 = .seByte 3 0x42 := by decide
theorem test_decode_sneByte : decode true 0b0100111101000001 = .sneByte 15 0x41 := by decide
theorem test_decode_seReg : decode true 0b0101000100100000 = .seReg 1 2 0 := by decide
theorem test_decode_ldByte : decode true 0b0110101000101011 = .ldByte 10 0x2B := by decide
theorem test_decode_addByte : decode true 0b0111000000000010 = .addByte 0 0x02 := by decide
theorem test_decode_ldReg : decode true 0b1000000100100000 = .ldReg 1 2 := by decide
theorem test_decode_orReg : decode true 0b1000000100100001 = .orReg 1 2 := by decide
theorem test_decode_andReg : decode true 0b1000000100100010 = .andReg 1 2 := by decide
theorem test_decode_xorReg : decode true 0b1000000100100011 = .xorReg 1 2 := by decide
theorem test_decode_addReg : decode true 0b1000000100100100 = .addReg 1 2 := by decide
theorem test_decode_subReg : decode true 0b1000000100100101 = .subReg 1 2 := by decide
theorem test_decode_shr : decode true 0b1000000100100110 = .shr 1 2 := by decide
theorem test_decode_subnReg : decode true 0b1000000100100111 = .subnReg 1 2 := by decide
theorem test_decode_shl : decode true 0b1000000100101110 = .shl 1 2 := by decide
theorem test_decode_sneReg : decode true 0b1001000100100000 = .sneReg 1 2 0 := by decide
theorem test_decode_ldI : decode true 0b1010001000101010 = .ldI 0x22A := by decide
theorem test_decode_jpV0 : decode true 0b1011001100000000 = .jpV0 0x300 := by decide
theorem test_decode_rnd : decode true 0b1100001100001111 = .rnd 3 0x0F := by decide
theorem test_decode_drw : decode true 0b1101000100101111 = .drw 1 2 15 := by decide
theorem test_decode_skp : decode true 0b1110010110011110 = .skp 5 := by decide
theorem test_decode_sknp : decode true 0b1110010110100001 = .sknp 5 := by decide
theorem test_decode_ldVxDt : decode true 0b1111000100000111 = .ldVxDt 1 := by decide
theorem test_decode_ldVxK : decode true 0b1111001100001010 = .ldVxK 3 := by decide
theorem test_decode_ldDtVx : decode true 0b1111001000010101 = .ldDtVx 2 := by decide
theorem test_decode_ldStVx : decode true 0b1111001000011000 = .ldStVx 2 := by decide
theorem test_decode_addI : decode true 0b1111001000011110 = .addI 2 := by decide
theorem test_decode_ldB : decode true 0b1111000000110011 = .ldB 0 := by decide
theorem test_decode_ldMemVx : decode true 0b1111001001010101 = .ldMemVx 2 := by decide
theorem test_decode_ldVxMem : decode true 0b1111001001100101 = .ldVxMem 2 := by decide
theorem test_decode_dw : decode true 0xF029 = .dw 0xF029 ∧ decode true 0x01E0 = .dw 0x01E0 ∧
    decode true 0x5121 = .dw 0x5121 ∧ decode true 0x8128 = .dw 0x8128 ∧ decode true 0xE19F = .dw 0xE19F := by decide

/-- `STRICT_DECODE = false` (R68, R69). -/
theorem test_decode_non_strict : decode false 0x01E0 = .cls 1 ∧ decode false 0x0AEE = .ret 10 ∧
    decode false 0x5121 = .seReg 1 2 1 ∧ decode false 0x912F = .sneReg 1 2 15 ∧ decode false 0x0123 = .dw 0x0123 := by
  decide

theorem test_decode_bytes : decodeBytes true [0xA2, 0x2A, 0x77] = .instr (.ldI 0x22A) [0x77] ∧
    decodeBytes true [0xA2] = .error .truncated ∧ encodeBytes (.ldI 0x22A) = [0xA2, 0x2A] := by decide

theorem test_table_word : decodeTableWord 16 0xD015 = some (.drw 0 1 5) ∧ decodeTableWord 8 0xE0 = some (.cls 0) ∧
    decodeTableWord 32 0 = none := by decide

/-! ## Well-formedness: an ill-formed term for each check -/

theorem test_wf_cls_nibble : (Instr.cls 1).wf true = false ∧ (Instr.cls 1).wf false = true := by decide
theorem test_wf_ret_nibble : (Instr.ret 0xA).wf true = false ∧ (Instr.ret 0xA).wf false = true := by decide
theorem test_wf_seReg_nibble : (Instr.seReg 1 2 1).wf true = false ∧ (Instr.seReg 1 2 0).wf true = true := by decide
theorem test_wf_sneReg_nibble : (Instr.sneReg 1 2 15).wf true = false ∧ (Instr.sneReg 1 2 0).wf true = true := by decide
theorem test_wf_dw_word : (Instr.dw 0x00E0).wf true = false ∧ (Instr.dw 0x5121).wf true = true ∧
    (Instr.dw 0x5121).wf false = false := by decide

/-! ## The step: fetch, halt, wait -/

/-- F2: a fetch at an odd `pc`. -/
theorem test_fetch_odd : after (withWord 0x6005 (State.reset.setPc 0x201))
    (fun t => t.reg 0 == 0x05 && t.pc == 0x203 && t.started) = true := by decide
/-- F3. -/
theorem test_fetch_last : after (withWord 0x6A01 (State.reset.setPc 0xFFE))
    (fun t => t.reg 10 == 1 && t.pc == 0x1000) = true := by decide
/-- F4 and F6. -/
theorem test_fetch_fault : after (State.reset.setPc 0xFFF) (fun t => halted t .outOfBounds 0xFFF none 0x1000) = true ∧
    after (State.reset.setPc 0x10FE) (fun t => halted t .outOfBounds 0x10FE none 0x10FE) = true := by decide
/-- H11. -/
theorem test_halted_step : afterOp (.step 0x5A) ((State.reset.setPc 0xFFF).start.halt .outOfBounds none 0x1000)
    (fun t r => t == (State.reset.setPc 0xFFF).start.halt .outOfBounds none 0x1000 && r == .stepFault .outOfBounds)
    = true := by decide
/-- K12: the poll takes the lowest key. -/
theorem test_poll_key : afterOp (.step 0) ((State.reset.setRun (.awaitingKey 3)).keysWritten 0x9000)
    (fun t r => t.reg 3 == 0x0C && t.pc == 0x202 && t.run == .running && r == .stepOk) = true := by decide
/-- H16: no fetch during the wait. -/
theorem test_poll_no_key : afterOp (.step 0xFF) (State.reset.setRun (.awaitingKey 3))
    (fun t r => t == (State.reset.setRun (.awaitingKey 3)).start && r == .stepWaiting) = true := by decide

/-! ## The instructions -/

/-- D1. -/
theorem test_cls : after (withWord 0x00E0 (State.reset.setFb (Framebuffer.toggle Framebuffer.dark (px 63 31))))
    (fun t => t.fb == Framebuffer.dark && t.pc == 0x202) = true := by decide
/-- U4. -/
theorem test_cls_non_strict : after
    (withWord 0x01E0 (State.setFb (withConfig { Config.default with strictDecode := false })
      (Framebuffer.toggle Framebuffer.dark (px 5 5)))) (fun t => !lit t 5 5) = true := by decide
/-- D3: a collision. -/
theorem test_drw_collision : after
    (withWord 0xD011 ((((State.reset.setReg 0 2).setReg 1 3).setIdx 0x300).setMem [(0x300, 0xF0)] |>.setFb
      (Framebuffer.toggle Framebuffer.dark (px 3 3))))
    (fun t => lit t 2 3 && !lit t 3 3 && lit t 4 3 && lit t 5 3 && t.reg 15 == 1 && t.pc == 0x202) = true := by decide
/-- D11, D12, D13: the corner under each `SPRITE_EDGE`. -/
theorem test_drw_edges :
    let corner (s : State) := withWord 0xD012 ((((s.setReg 0 0x3F).setReg 1 0x1F).setIdx 0x300).setMem
      [(0x300, 0xC0), (0x301, 0xC0)])
    after (corner State.reset) (fun t => lit t 63 31 && lit t 0 0 && lit t 63 0 && lit t 0 1 && t.reg 15 == 0) = true ∧
    after (corner clipped) (fun t => lit t 63 31 && !lit t 0 0 && !lit t 63 0 && !lit t 0 1 && !lit t 0 31) = true ∧
    after (corner torus) (fun t => lit t 63 31 && lit t 0 31 && lit t 63 0 && lit t 0 0) = true := by decide
/-- D5 and D7: no rows, no check; a row outside faults with nothing written. -/
theorem test_drw_bounds :
    after (withWord 0xD010 ((State.reset.setReg 15 1).setIdx 0xFFF)) (fun t => t.reg 15 == 0 && t.pc == 0x202) = true ∧
    after (withWord 0xD012 ((State.reset.setReg 15 7).setIdx 0xFFF))
      (fun t => t.reg 15 == 7 && halted t .outOfBounds 0x200 (some 0xD012) 0x1000) = true := by decide
/-- C3. -/
theorem test_ret : after (withWord 0x00EE ((State.reset.setPc 0x300).setStack [0x204, 0x20A]))
    (fun t => t.pc == 0x20A && t.stack == [0x204]) = true := by decide
/-- C1. -/
theorem test_ret_empty : after (withWord 0x00EE) (fun t => halted t .stackUnderflow 0x200 (some 0x00EE) 0) = true := by
  decide
/-- C5. -/
theorem test_jp_odd : after (withWord 0x1203) (fun t => t.pc == 0x203) = true := by decide
/-- C8. -/
theorem test_call : after (withWord 0x2210 (State.reset.setPc 0x204))
    (fun t => t.pc == 0x210 && t.stack == [0x206]) = true := by decide
/-- C11 and C12. -/
theorem test_call_full :
    after (withWord 0x2300 (State.reset.setStack (List.replicate 16 0x202)))
      (fun t => halted t .stackOverflow 0x200 (some 0x2300) 16) = true ∧
    after (withWord 0x2300 (depth12.setStack (List.replicate 12 0x202)))
      (fun t => halted t .stackOverflow 0x200 (some 0x2300) 12) = true := by decide
/-- C13 and C14. -/
theorem test_seByte : after (withWord 0x3342 (State.reset.setReg 3 0x42)) (fun t => t.pc == 0x204) = true ∧
    after (withWord 0x3342 (State.reset.setReg 3 0x41)) (fun t => t.pc == 0x202) = true := by decide
/-- C16 and C17. -/
theorem test_sneByte : after (withWord 0x4342 (State.reset.setReg 3 0x41)) (fun t => t.pc == 0x204) = true ∧
    after (withWord 0x4342 (State.reset.setReg 3 0x42)) (fun t => t.pc == 0x202) = true := by decide
/-- C18 and C19. -/
theorem test_seReg : after (withWord 0x5120 ((State.reset.setReg 1 7).setReg 2 7)) (fun t => t.pc == 0x204) = true ∧
    after (withWord 0x5120 ((State.reset.setReg 1 7).setReg 2 8)) (fun t => t.pc == 0x202) = true := by decide
/-- C21 and C22. -/
theorem test_sneReg : after (withWord 0x9120 ((State.reset.setReg 1 7).setReg 2 8)) (fun t => t.pc == 0x204) = true ∧
    after (withWord 0x9120 ((State.reset.setReg 1 7).setReg 2 7)) (fun t => t.pc == 0x202) = true := by decide
/-- C25: no wrap to 12 bits. -/
theorem test_jpV0 : after (withWord 0xBFFF (State.reset.setReg 0 0xFF)) (fun t => t.pc == 0x10FE) = true := by decide
/-- A2. -/
theorem test_ldByte : after (withWord 0x6F80 (State.reset.setReg 15 1)) (fun t => t.reg 15 == 0x80) = true := by decide
/-- A3 and A6. -/
theorem test_addByte :
    after (withWord 0x7002 ((State.reset.setReg 0 0xFF).setReg 15 0x55)) (fun t => t.reg 0 == 1 && t.reg 15 == 0x55)
      = true ∧
    after (withWord 0x7F01 (State.reset.setReg 15 0xFF)) (fun t => t.reg 15 == 0) = true := by decide
/-- A7. -/
theorem test_ldReg : after (withWord 0x8120 ((State.reset.setReg 1 0x11).setReg 2 0x33))
    (fun t => t.reg 1 == 0x33 && t.reg 2 == 0x33) = true := by decide
/-- A8. -/
theorem test_orReg : after (withWord 0x8121 (((State.reset.setReg 1 0x0F).setReg 2 0xF0).setReg 15 0x77))
    (fun t => t.reg 1 == 0xFF && t.reg 15 == 0x77) = true := by decide
/-- A9. -/
theorem test_andReg : after (withWord 0x8122 (((State.reset.setReg 1 0x3C).setReg 2 0x0F).setReg 15 0x77))
    (fun t => t.reg 1 == 0x0C && t.reg 15 == 0x77) = true := by decide
/-- A10. -/
theorem test_xorReg : after (withWord 0x8123 (((State.reset.setReg 1 0x3C).setReg 2 0x0F).setReg 15 0x77))
    (fun t => t.reg 1 == 0x33 && t.reg 15 == 0x77) = true := by decide
/-- A13. -/
theorem test_addReg : after (withWord 0x8124 (((State.reset.setReg 1 0x80).setReg 2 0x7F).setReg 15 1))
    (fun t => t.reg 1 == 0xFF && t.reg 15 == 0) = true := by decide
/-- A15 and A16: X = F under each order. -/
theorem test_addReg_F :
    after (withWord 0x8F24 ((State.reset.setReg 2 0x20).setReg 15 0xF0)) (fun t => t.reg 15 == 0x10) = true ∧
    after (withWord 0x8F24 ((flagLast.setReg 2 0x20).setReg 15 0xF0)) (fun t => t.reg 15 == 1) = true := by decide
/-- A19. -/
theorem test_subReg : after (withWord 0x8125 (((State.reset.setReg 1 3).setReg 2 5).setReg 15 1))
    (fun t => t.reg 1 == 0xFE && t.reg 15 == 0) = true := by decide
/-- A21 to A25: X = F and Y = F under each order. -/
theorem test_subReg_F :
    after (withWord 0x8F25 ((State.reset.setReg 2 3).setReg 15 5)) (fun t => t.reg 15 == 0xFE) = true ∧
    after (withWord 0x8F25 ((flagLast.setReg 2 3).setReg 15 5)) (fun t => t.reg 15 == 1) = true ∧
    after (withWord 0x81F5 ((State.reset.setReg 1 5).setReg 15 3)) (fun t => t.reg 1 == 4 && t.reg 15 == 1) = true ∧
    after (withWord 0x81F5 ((flagLast.setReg 1 5).setReg 15 3)) (fun t => t.reg 1 == 2 && t.reg 15 == 1) = true ∧
    after (withWord 0x8FF5 (State.reset.setReg 15 9)) (fun t => t.reg 15 == 0) = true := by decide
/-- A27: V[Y] is not read. -/
theorem test_shr : after (withWord 0x8126 (((State.reset.setReg 1 0x80).setReg 2 0xFF).setReg 15 1))
    (fun t => t.reg 1 == 0x40 && t.reg 15 == 0) = true := by decide
/-- A28 and A29. -/
theorem test_shr_F : after (withWord 0x8F06 (State.reset.setReg 15 3)) (fun t => t.reg 15 == 0) = true ∧
    after (withWord 0x8F06 (flagLast.setReg 15 3)) (fun t => t.reg 15 == 1) = true := by decide
/-- A31. -/
theorem test_subnReg : after (withWord 0x8127 (((State.reset.setReg 1 5).setReg 2 3).setReg 15 1))
    (fun t => t.reg 1 == 0xFE && t.reg 15 == 0) = true := by decide
/-- A33 and A34. -/
theorem test_subnReg_F : after (withWord 0x8F27 ((State.reset.setReg 2 5).setReg 15 3)) (fun t => t.reg 15 == 1) = true ∧
    after (withWord 0x81F7 ((State.reset.setReg 1 3).setReg 15 5)) (fun t => t.reg 1 == 2 && t.reg 15 == 1) = true := by
  decide
/-- A35. -/
theorem test_shl : after (withWord 0x810E (State.reset.setReg 1 0x81)) (fun t => t.reg 1 == 2 && t.reg 15 == 1) = true := by
  decide
/-- A37 and A38. -/
theorem test_shl_F : after (withWord 0x8F0E (State.reset.setReg 15 0x81)) (fun t => t.reg 15 == 2) = true ∧
    after (withWord 0x8F0E (flagLast.setReg 15 0x81)) (fun t => t.reg 15 == 1) = true := by decide
/-- A39 and A41. -/
theorem test_rnd : afterOp (.step 0xA5) (withWord 0xC30F) (fun t r => t.reg 3 == 0x05 && t.rand == [] && r == .stepOk)
      = true ∧
    afterOp (.step 0x3C) (withWord 0xCFFF) (fun t _ => t.reg 15 == 0x3C) = true := by decide
/-- With no byte supplied the result is the free value: only the mask is known (A40, for every `r`). -/
theorem test_rnd_free : step (withWord 0xC377) =
    .next (((withWord 0xC377).start.dropRandom.setReg 3 (Config.freeRandom 0 &&& 0x77)).advance) := rfl
/-- M1, W7. -/
theorem test_ldI : after (withWord 0xA22A) (fun t => t.idx == 0x22A && t.pc == 0x202) = true := by decide
/-- M4 and M5. -/
theorem test_addI :
    after (withWord 0xF21E (((State.reset.setReg 2 1).setReg 15 0x55).setIdx 0xFFF))
      (fun t => t.idx == 0x1000 && t.reg 15 == 0x55) = true ∧
    after (withWord 0xF21E ((wrap12.setReg 2 1).setIdx 0xFFF)) (fun t => t.idx == 0) = true := by decide
/-- M7, W6. -/
theorem test_ldB : after (withWord 0xF033 ((State.reset.setReg 0 234).setIdx 0x300))
    (fun t => t.byteAt 0x300 == 2 && t.byteAt 0x301 == 3 && t.byteAt 0x302 == 4 && t.idx == 0x300) = true := by decide
/-- M11. -/
theorem test_ldB_bound : after (withWord 0xF033 ((State.reset.setReg 0 7).setIdx 0xFFE))
    (fun t => t.byteAt 0xFFE == 0 && t.byteAt 0xFFF == 0 && halted t .outOfBounds 0x200 (some 0xF033) 0x1000) = true := by
  decide
/-- M13. -/
theorem test_ldMemVx : after (withWord 0xF255 ((((State.reset.setReg 0 1).setReg 1 2).setReg 2 3).setIdx 0x400))
    (fun t => t.byteAt 0x400 == 1 && t.byteAt 0x401 == 2 && t.byteAt 0x402 == 3 && t.byteAt 0x403 == 0 &&
      t.idx == 0x400) = true := by decide
/-- M16. -/
theorem test_ldMemVx_bound : after (withWord 0xFF55 ((State.reset.setReg 0 1).setIdx 0xFF1))
    (fun t => t.byteAt 0xFF1 == 0 && halted t .outOfBounds 0x200 (some 0xFF55) 0x1000) = true := by decide
/-- M17. -/
theorem test_ldVxMem : after (withWord 0xF265 ((State.reset.setMem [(0x400, 1), (0x401, 2), (0x402, 3), (0x403, 4)]).setIdx
    0x400)) (fun t => t.reg 0 == 1 && t.reg 1 == 2 && t.reg 2 == 3 && t.reg 3 == 0 && t.idx == 0x400) = true := by decide
/-- M19. -/
theorem test_ldVxMem_bound : after (withWord 0xF165 ((State.reset.setReg 0 9).setIdx 0xFFF))
    (fun t => t.reg 0 == 9 && halted t .outOfBounds 0x200 (some 0xF165) 0x1000) = true := by decide
/-- K1 and K2. -/
theorem test_skp : after (withWord 0xE59E ((State.reset.setReg 5 0xA).keysWritten 0x0400)) (fun t => t.pc == 0x204)
      = true ∧
    after (withWord 0xE59E ((State.reset.setReg 5 0xA).keysWritten 0x0800)) (fun t => t.pc == 0x202) = true := by decide
/-- K5 and K6. -/
theorem test_skp_range :
    after (withWord 0xE59E ((State.reset.setReg 5 0x10).keysWritten 1))
      (fun t => halted t .keyOutOfRange 0x200 (some 0xE59E) 16) = true ∧
    after (withWord 0xE59E ((lowNibble.setReg 5 0x10).keysWritten 1)) (fun t => t.pc == 0x204) = true := by decide
/-- K3 and K4. -/
theorem test_sknp : after (withWord 0xE5A1 (State.reset.setReg 5 0xA)) (fun t => t.pc == 0x204) = true ∧
    after (withWord 0xE5A1 ((State.reset.setReg 5 0xA).keysWritten 0x0400)) (fun t => t.pc == 0x202) = true := by decide
/-- K7. -/
theorem test_ldVxDt : after (withWord 0xF107 (State.reset.setDt 60)) (fun t => t.reg 1 == 0x3C && t.dt == 60) = true := by
  decide
/-- K9. -/
theorem test_ldVxK : after (withWord 0xF30A (State.reset.keysWritten 0x0220))
    (fun t => t.reg 3 == 5 && t.pc == 0x202 && t.run == .running) = true := by decide
/-- K8. -/
theorem test_ldVxK_wait : after (withWord 0xF30A) (fun t => t.pc == 0x200 && t.run == .awaitingKey 3) = true := by decide
/-- K14. -/
theorem test_ldDtVx : after (withWord 0xF215 (State.reset.setReg 2 0x3C)) (fun t => t.dt == 60 && t.st == 0) = true := by
  decide
/-- K16. -/
theorem test_ldStVx : after (withWord 0xF218 (State.reset.setReg 2 5)) (fun t => t.st == 5 && t.dt == 0) = true := by
  decide
/-- U11. -/
theorem test_dw : step (withWord 0xF029) = .next ((withWord 0xF029).start.advance) := rfl

/-! ## The host's operations -/

/-- H1. -/
theorem test_reset : afterOp .reset ((State.reset.setPc 0xFFF).start.halt .outOfBounds none 0x1000)
    (fun t r => t == State.reset && r == .done) = true := by decide
/-- H2. -/
theorem test_load : afterOp (.load [0xA2, 0x2A]) State.reset
    (fun t r => t == State.reset.setMem [(0x200, 0xA2), (0x201, 0x2A)] && r == .loaded) = true := by decide
/-- H3 and H4: 3584 bytes fit and 3585 do not. -/
theorem test_load_size : programFits 3584 = true ∧ programFits 3585 = false := by decide
/-- H4: the reply to a program that does not fit holds the kind and the byte count (R133). -/
theorem test_load_fault : perform (.load (List.replicate 3585 0)) State.reset =
    .next (State.reset, .loadFault .programTooLarge 3585) := by
  rw [perform_load_too_large _ _ rfl (by rw [List.length_replicate]; decide), List.length_replicate]
/-- H5. -/
theorem test_load_refused : perform (.load [0]) State.reset.start = .refused .loadAfterStart := rfl
/-- H7 and H8. -/
theorem test_tick :
    afterOp .tick State.reset (fun t _ => t.dt == 0 && t.st == 0) = true ∧
    afterOp .tick ((State.reset.setDt 255).setSt 3) (fun t _ => t.dt == 254 && t.st == 2) = true := by decide
/-- H12 and H13. -/
theorem test_keys : afterOp (.keysWrite 8) (State.reset.keysWritten 6) (fun t _ => t.key == 8) = true ∧
    afterOp .keysClear (State.reset.keysWritten 0x8001) (fun t _ => t.key == 0) = true := by decide
/-- H14. -/
theorem test_status : perform .statusRead (State.reset.setSt 7) =
    .next (State.reset.setSt 7, .status ⟨.running, none, 0, 7⟩) := rfl
/-- H15: pixel (2, 3) is bit 194. -/
theorem test_pixel_number : lit (State.reset.setFb (Framebuffer.toggle Framebuffer.dark 194)) 2 3 = true ∧
    lit (State.reset.setFb (Framebuffer.toggle Framebuffer.dark 194)) 3 3 = false := by decide
/-- P4, frame 1: a frame with no key leaves the core waiting. -/
theorem test_frame : (match frame 0 (fun _ => 0) (withWord 0xF30A) with
    | .next (t, _) => t.run == .awaitingKey 3 && t.key == 0 && t.pc == 0x200
    | _ => false) = true := by decide
/-- The default machine with three steps a frame and a sticky key latch (R145). -/
abbrev threeSteps : State :=
  { State.reset with cfg := { Config.default with stepsPerFrame := 3, keyClearAtFrameEnd := false } }
/-- R145: as many steps as `STEPS_PER_FRAME`, a byte each, here three CXNN; the sticky latch keeps the keys. -/
theorem test_frame_steps :
    (match frame 6 (fun j => BitVec.ofNat 8 (10 * (j + 1))) (threeSteps.loaded [0xC1, 0xFF, 0xC2, 0xFF, 0xC3, 0x0F]) with
    | .next (t, replies) => t.pc == 0x206 && t.reg 1 == 10 && t.reg 2 == 20 && t.reg 3 == 14 && t.key == 6 &&
        replies.take 3 == [.stepOk, .stepOk, .stepOk] && replies.length == 4
    | _ => false) = true := by decide
/-- R145: a fault ends the stepping, here at the first of three steps. -/
theorem test_frame_fault : (match frame 0 (fun _ => 0) (withWord 0x00EE threeSteps) with
    | .next (t, replies) => t.run == .halted && replies.take 1 == [.stepFault .stackUnderflow] && replies.length == 2
    | _ => false) = true := by decide

/-! ## Witnesses: states and operands that meet the hypotheses of the statements -/

theorem witness_DecodeSelectsTheMatchingRow : opcodeTable[0]? = some ⟨"CLS", 0xFFFF, 0xF0FF, 0x00E0⟩ ∧
    opcodeTable[32]? = some ⟨"LD_Vx___I", 0xF0FF, 0xF0FF, 0xF065⟩ ∧ (decode true 0xFA65).rowNumber = some 33 := by decide

theorem witness_DecodeOfEncode : (Instr.drw 15 0 15).wf true = true ∧ (Instr.cls 15).wf false = true ∧
    (Instr.dw 0x0FFF).wf true = true := by decide

theorem witness_StepRunsTheDecodedInstruction :
    (withWord 0x6A01 (State.reset.setPc 0xFFE)).run = .running ∧
    (withWord 0x6A01 (State.reset.setPc 0xFFE)).pc.toNat + 1 < 4096 ∧
    decodeBytes true [(withWord 0x6A01 (State.reset.setPc 0xFFE)).byteAt 0xFFE,
      (withWord 0x6A01 (State.reset.setPc 0xFFE)).byteAt 0xFFF] = .instr (.ldByte 10 1) [] := by decide

theorem witness_FetchPastMemoryFaults : (State.reset.setPc 0xFFF).run = .running ∧
    4096 ≤ (State.reset.setPc 0xFFF).pc.toNat + 1 ∧ 4096 ≤ (State.reset.setPc 0xFFFF).pc.toNat + 1 := by decide

/-- A halted state that a fetch fault leaves. -/
abbrev stopped : State := (State.reset.setPc 0xFFF).start.halt .outOfBounds none 0x1000

theorem witness_HaltedStepReturnsTheFault : stopped.run = .halted ∧ stopped.fault = some ⟨.outOfBounds, 0xFFF, none, 0x1000⟩ := by
  decide

/-- A waiting state with keys down. -/
abbrev waiting (keys : BitVec 16) : State := ((withWord 0xF30A).start.setRun (.awaitingKey 3)).keysWritten keys

theorem witness_WaitingStepOnlyPolls : (waiting 0).run = .awaitingKey 3 ∧ (∀ k : Key, (waiting 0).keyDown k = false) ∧
    (waiting 0x8001).keyDown 0 = true ∧ (waiting 0x8000).keyDown 15 = true ∧
    (∀ j : Key, j < 15 → (waiting 0x8000).keyDown j = false) := by decide

theorem witness_StepReplyTellsTheRunState : HaltedIffFault (withWord 0x6A01) ∧ HaltedIffFault (waiting 0) ∧
    HaltedIffFault stopped := by decide

theorem witness_RandomByteReadOnlyByRnd (x : Reg) (nn : Byte) :
    ¬ (State.reset.run = .running ∧ State.reset.fetchInRange = true ∧
      decode State.reset.cfg.strictDecode State.reset.fetchWord = .rnd x nn) := by
  rintro ⟨-, -, h⟩
  have h' : decode State.reset.cfg.strictDecode State.reset.fetchWord = .dw 0 := by decide
  rw [h'] at h
  cases h

theorem witness_step_answers : step (withWord 0xF215) = .next ((withWord 0xF215).start.setDt 0).advance := rfl

theorem witness_InvariantHoldsAtReset : ConfigLegal Config.default ∧
    ConfigLegal { Config.default with stackDepth := 12, indexWrap := .bits12, initMem := [(0xFFF, 1)] } := by decide

theorem witness_EveryStepKeepsTheInvariant : (withWord 0x2200).Inv ∧
    step (withWord 0x2200) = .next (((withWord 0x2200).start.push 0x202).setPc 0x200) :=
  ⟨by decide, rfl⟩

theorem witness_invariant_of_stopped_states : (waiting 0x10).Inv ∧ stopped.Inv ∧ ¬ ((waiting 0).setPc 0x300).Inv := by
  decide

theorem witness_EveryHostOperationKeepsTheInvariant : (waiting 0).Inv ∧ perform .tick (waiting 0) = .next
    ((waiting 0).ticked, .done) := ⟨by decide, rfl⟩

theorem witness_FaultsArePrecise : (State.reset.setPc 0xFFF).run ≠ .halted ∧
    step (State.reset.setPc 0xFFF) = .next stopped ∧ stopped.run = .halted := ⟨by decide, rfl, rfl⟩

/-- R133's cases at the two sides of their bounds. -/
theorem witness_FaultsHaveTheListedCauses : State.reset.run = .running ∧ StackBounded State.reset ∧
    faultMet (State.reset.setIdx 0xFFE) (.ldB 0) = some (.outOfBounds, 0x1000) ∧
    faultMet (State.reset.setIdx 0xFFD) (.ldB 0) = none ∧
    faultMet (State.reset.setIdx 0xFFF) (.drw 0 0 0) = none ∧
    faultMet (State.reset.setIdx 0x1234) (.drw 0 0 1) = some (.outOfBounds, 0x1234) ∧
    faultMet (State.reset.setStack (List.replicate 16 0)) (.call 0) = some (.stackOverflow, 16) ∧
    faultMet (State.reset.setStack (List.replicate 15 0)) (.call 0) = none ∧
    faultMet State.reset (.ret 0) = some (.stackUnderflow, 0) ∧
    faultMet (State.reset.setReg 5 0x10) (.skp 5) = some (.keyOutOfRange, 16) ∧
    faultMet (State.reset.setReg 5 0xF) (.sknp 5) = none := by decide

/-- R49's bound at its two sides. -/
theorem witness_DataRangeIsCheckedFirst :
    (1 ≤ 16 ∧ 0xFFF < (State.reset.setIdx 0xFF1).idx.toNat + 16 - 1) ∧
    (State.reset.setIdx 0xFF0).idx.toNat + 16 - 1 ≤ 0xFFF ∧
    (∃ x : Reg, Instr.ldMemVx 15 = .ldMemVx x ∧ 16 = x.val + 1) := ⟨by decide, by decide, 15, rfl, rfl⟩

theorem witness_OnlyResetLeavesHalted : stopped.run = .halted ∧ perform .tick stopped = .next (stopped.ticked, .done) ∧
    perform .reset stopped = .next (State.reset, .done) := ⟨rfl, rfl, rfl⟩

theorem witness_EachPartHasItsWriters : exec (.ldI 5) State.reset = .next ((State.reset.setIdx 5).advance) := rfl

theorem witness_OnlyFlagInstructionsWriteVF : exec (.ldByte 3 5) State.reset = .next ((State.reset.setReg 3 5).advance) ∧
    writesFlag (.ldByte 3 5) = false ∧ namesFlagAsTarget (.ldByte 3 5) = false ∧
    namesFlagAsTarget (.ldVxMem 14) = false ∧ namesFlagAsTarget (.ldVxMem 15) = true := ⟨rfl, by decide⟩

/-- Both orders of the flag's write, for the clauses on X = F and Y = F. -/
theorem witness_flag_orders : State.reset.cfg.flagOrder = .asWritten ∧ flagLast.cfg.flagOrder = .flagLast ∧
    (0 : Reg) ≠ Reg.F ∧ (15 : Reg) = Reg.F := by decide

theorem witness_SubtractResult : (1 : Byte) = (if ((State.reset.setReg 1 5).reg 2).toNat <
    ((State.reset.setReg 1 5).reg 1).toNat then 1 else 0) := by decide

theorem witness_SubtractFromResult : (1 : Byte) = (if ((State.reset.setReg 2 5).reg 1).toNat <
    ((State.reset.setReg 2 5).reg 2).toNat then 1 else 0) := by decide

theorem witness_RandomResult : ({ State.reset with rand := [7, 8] } : State).rand = 7 :: [8] := rfl

theorem witness_StepWithRandomByte : (withWord 0xC30F).run = .running ∧ (withWord 0xC30F).fetchInRange = true ∧
    decode true (withWord 0xC30F).fetchWord = .rnd 3 0x0F := by decide

theorem witness_DrawFlipsTheSpritesPixels :
    (State.reset.setIdx 0xFF1).idx.toNat + (15 : Nibble).toNat ≤ 4096 ∧ (0 : Nibble).toNat = 0 ∧
    DrawsPixel (State.setMem (State.reset.setIdx 0x300) [(0x300, 0x80)]) 0 1 1 0 :=
  ⟨by decide, by decide, 0, 0, by decide, by decide, by decide, by decide⟩

theorem witness_SpriteTargetByEdge : spriteTarget .linearWrap 70 46 = some 966 ∧ spriteTarget .torusWrap 70 46 = some 902 ∧
    spriteTarget .clip 63 31 = some 2047 ∧ spriteTarget .clip 64 31 = none ∧ spriteTarget .clip 63 32 = none := by decide

theorem witness_SpriteBitsHaveDistinctTargets :
    spriteTarget .linearWrap (63 + 7) (31 + 14) = some 902 ∧ spriteTarget .clip (0 + 7) (0 + 14) = some 903 := by decide

/-- A sprite row at 0x300, drawn from (V0, V1) and again from (V2, V3). -/
abbrev sprite : State := State.setMem (State.reset.setIdx 0x300) [(0x300, 0xF0)]

theorem witness_DrawingTwiceRestores :
    sprite.idx.toNat + (1 : Nibble).toNat ≤ 4096 ∧
    exec (.drw 0 1 1) sprite = .next (((sprite.setFb (sprite.drawn 0 1 1).fb).setFlag (sprite.drawn 0 1 1).hit).advance) ∧
    ((((sprite.setFb (sprite.drawn 0 1 1).fb).setReg 2 64).setReg 3 32).reg 2).toNat % 64 = (sprite.reg 0).toNat % 64 ∧
    ((((sprite.setFb (sprite.drawn 0 1 1).fb).setReg 2 64).setReg 3 32).reg 3).toNat % 32 = (sprite.reg 1).toNat % 32 :=
  ⟨by decide, rfl, by decide, by decide⟩

theorem witness_CallResult : (State.reset.setStack (List.replicate 15 0x202)).stack.length < State.reset.cfg.stackDepth ∧
    (State.reset.setStack (List.replicate 16 0x202)).stack.length = State.reset.cfg.stackDepth := by decide

theorem witness_ReturnResult : (State.reset.setStack [0x204, 0x20A]).stack = [0x204] ++ [0x20A] ∧
    State.reset.stack = [] := by decide

theorem witness_ReturnComesBackAfterCall : State.reset.stack.length < State.reset.cfg.stackDepth ∧
    exec (.call 0x300) State.reset = .next ((State.reset.push 0x202).setPc 0x300) ∧
    KeepsStack ((State.reset.push 0x202).setPc 0x300) ((State.reset.push 0x202).setPc 0x400) := ⟨by decide, rfl, rfl⟩

theorem witness_DigitsResult : (State.reset.setIdx 0xFFD).idx.toNat + 2 ≤ 0xFFF ∧
    0xFFF < (State.reset.setIdx 0xFFE).idx.toNat + 2 := by decide

theorem witness_StoreRegistersResult : (State.reset.setIdx 0xFF0).idx.toNat + (15 : Reg).val ≤ 0xFFF ∧
    0xFFF < (State.reset.setIdx 0xFF1).idx.toNat + (15 : Reg).val := by decide

theorem witness_LoadRegistersResult : (State.reset.setIdx 0xFFF).idx.toNat + (0 : Reg).val ≤ 0xFFF ∧
    0xFFF < (State.reset.setIdx 0x1000).idx.toNat + (0 : Reg).val := by decide

/-- The state FX55 leaves from `sprite` with I = 0x300 and X = 1. -/
abbrev stored : State := (sprite.setMem (sprite.mem.writeBytes 0x300 (sprite.regsUpTo 1))).advance

theorem witness_StoreThenLoadRestoresRegisters : sprite.idx.toNat + (1 : Reg).val ≤ 0xFFF ∧
    exec (.ldMemVx 1) sprite = .next stored ∧ KeepsIndex sprite stored := ⟨by decide, rfl, rfl⟩

theorem witness_FetchSeesEarlierStores : (1 : Reg) ≤ 1 ∧ (1 : Reg).val = (0 : Reg).val + 1 ∧
    exec (.ldMemVx 1) sprite = .next stored ∧ KeepsMemory stored (stored.setPc 0x300) ∧
    (stored.setPc 0x300).run = .running ∧ (stored.setPc 0x300).pc.toNat = sprite.idx.toNat + (0 : Reg).val :=
  ⟨by decide, rfl, rfl, fun _ => rfl, rfl, by decide⟩

/-- V0 = 123, and the state FX33 leaves of it with I = 0x300: a word at I, and one at I + 1. -/
abbrev digits : State := sprite.setReg 0 123
abbrev digitsStored : State := (digits.setMem (digits.mem.writeBytes 0x300 (decimalDigits (digits.reg 0)))).advance

theorem witness_FetchSeesEarlierStores_digits : digits.idx.toNat + 2 ≤ 0xFFF ∧
    (1 : Byte).toNat = (digits.reg 0).toNat / 100 ∧ (2 : Byte).toNat = (digits.reg 0).toNat / 10 % 10 ∧
    (3 : Byte).toNat = (digits.reg 0).toNat % 10 ∧ exec (.ldB 0) digits = .next digitsStored ∧
    KeepsMemory digitsStored (digitsStored.setPc 0x300) ∧ (digitsStored.setPc 0x300).run = .running ∧
    (digitsStored.setPc 0x300).pc.toNat = digits.idx.toNat ∧
    (digitsStored.setPc 0x301).pc.toNat = digits.idx.toNat + 1 :=
  ⟨by decide, by decide, by decide, by decide, rfl, fun _ => rfl, rfl, by decide, by decide⟩

theorem witness_KeySkipResults : ((State.reset.setReg 5 0xF).reg 5).toNat % 16 = (15 : Key).val ∧
    ((State.reset.setReg 5 0xF).reg 5).toNat ≤ 0xF ∧
    ((State.reset.setReg 5 0x10).reg 5).toNat % 16 = (0 : Key).val ∧ 0xF < ((State.reset.setReg 5 0x10).reg 5).toNat ∧
    State.reset.cfg.keyIndexMode = .fault ∧ lowNibble.cfg.keyIndexMode = .lowNibble := by decide

theorem witness_KeyWaitResult : (State.reset.keysWritten 0x0220).keyDown 5 = true ∧
    (∀ j : Key, j < 5 → (State.reset.keysWritten 0x0220).keyDown j = false) ∧
    (∀ k : Key, State.reset.keyDown k = false) := by decide

theorem witness_LoadResult : State.reset.started = false ∧ State.reset.start.started = true ∧
    (List.replicate 3584 (0x11 : Byte)).length + 0x200 ≤ 4096 ∧
    4096 < (List.replicate 3585 (0x11 : Byte)).length + 0x200 :=
  ⟨rfl, rfl, by rw [List.length_replicate], by rw [List.length_replicate]; decide⟩

theorem witness_FrameLeavesNoKeyPressed : State.reset.cfg.keyClearAtFrameEnd = true ∧
    threeSteps.cfg.keyClearAtFrameEnd = false := ⟨rfl, rfl⟩

/-- A frame whose step does not fault, and one whose step does, by their replies. -/
theorem witness_FrameIsItsOperations :
    (match frame 0 (fun _ => 0) (withWord 0x6A01) with
      | .next (_, replies) => replies.all fun
        | .stepFault _ => false
        | _ => true
      | _ => false) = true ∧
    (match frame 0 (fun _ => 0) (withWord 0x00EE) with
      | .next (_, replies) => replies.take 1 == [.stepFault .stackUnderflow] && (replies.drop 1).length == 1
      | _ => false) = true := by decide

theorem witness_BootRunsTheFirstWord : (List.replicate 3582 (0 : Byte)).length + 2 + 0x200 ≤ 4096 := by
  rw [List.length_replicate]

end Sys2Proof.Tests
end

/-! # The encoder undoes the decoder (`30_encoding.md` R64 to R72) -/

namespace Sys2Proof

theorem wordNNN_of_fieldOp {w : Word} {op : Nibble} (hop : fieldOp w = op) : wordNNN op (fieldNNN w) = w :=
  hop ▸ wordNNN_fields w

theorem wordXNN_of_fieldOp {w : Word} {op : Nibble} (hop : fieldOp w = op) :
    wordXNN op (fieldXBits w) (fieldNN w) = w := hop ▸ wordXNN_fields w

theorem wordXNN_of_fields {w : Word} {op : Nibble} {nn : Byte} (hop : fieldOp w = op) (hnn : fieldNN w = nn) :
    wordXNN op (fieldXBits w) nn = w := hnn ▸ wordXNN_of_fieldOp hop

theorem wordXYN_of_fieldOp {w : Word} {op : Nibble} (hop : fieldOp w = op) :
    wordXYN op (fieldXBits w) (fieldYBits w) (fieldN w) = w := hop ▸ wordXYN_fields w

theorem wordXYN_of_fields {w : Word} {op n : Nibble} (hop : fieldOp w = op) (hn : fieldN w = n) :
    wordXYN op (fieldXBits w) (fieldYBits w) n = w := hn ▸ wordXYN_of_fieldOp hop

/-- One choice of the decoder: it is enough that both instructions have the word. -/
theorem encode_ite {c : Prop} [Decidable c] {i j : Instr} {w : Word} (hi : c → encode i = w)
    (hj : ¬ c → encode j = w) : encode (if c then i else j) = w := by
  split
  · exact hi ‹_›
  · exact hj ‹_›

theorem encode_decodeGroup0 (strict : Bool) {w : Word} (hop : fieldOp w = 0x0) :
    encode (decodeGroup0 strict w) = w :=
  encode_ite
    (fun _ => encode_ite (wordXNN_of_fields hop) fun _ => encode_ite (wordXNN_of_fields hop) fun _ => rfl)
    fun _ => rfl

theorem encode_decodeGroup8 {w : Word} (hop : fieldOp w = 0x8) : encode (decodeGroup8 w) = w :=
  encode_ite (wordXYN_of_fields hop) fun _ => encode_ite (wordXYN_of_fields hop) fun _ =>
  encode_ite (wordXYN_of_fields hop) fun _ => encode_ite (wordXYN_of_fields hop) fun _ =>
  encode_ite (wordXYN_of_fields hop) fun _ => encode_ite (wordXYN_of_fields hop) fun _ =>
  encode_ite (wordXYN_of_fields hop) fun _ => encode_ite (wordXYN_of_fields hop) fun _ =>
  encode_ite (wordXYN_of_fields hop) fun _ => rfl

theorem encode_decodeGroupE {w : Word} (hop : fieldOp w = 0xE) : encode (decodeGroupE w) = w :=
  encode_ite (wordXNN_of_fields hop) fun _ => encode_ite (wordXNN_of_fields hop) fun _ => rfl

theorem encode_decodeGroupF {w : Word} (hop : fieldOp w = 0xF) : encode (decodeGroupF w) = w :=
  encode_ite (wordXNN_of_fields hop) fun _ => encode_ite (wordXNN_of_fields hop) fun _ =>
  encode_ite (wordXNN_of_fields hop) fun _ => encode_ite (wordXNN_of_fields hop) fun _ =>
  encode_ite (wordXNN_of_fields hop) fun _ => encode_ite (wordXNN_of_fields hop) fun _ =>
  encode_ite (wordXNN_of_fields hop) fun _ => encode_ite (wordXNN_of_fields hop) fun _ => rfl

/-- A nibble that is none of the fifteen values the decoder compares op with is the sixteenth. -/
theorem nibble_eq_F : ∀ n : Nibble, n ≠ 0x0 → n ≠ 0x1 → n ≠ 0x2 → n ≠ 0x3 → n ≠ 0x4 → n ≠ 0x5 → n ≠ 0x6 →
    n ≠ 0x7 → n ≠ 0x8 → n ≠ 0x9 → n ≠ 0xA → n ≠ 0xB → n ≠ 0xC → n ≠ 0xD → n ≠ 0xE → n = 0xF := by
  intros
  bv_omega

/-- Every word is the encoding of the instruction it decodes to (R64, R66). -/
theorem encode_decode (strict : Bool) (w : Word) : encode (decode strict w) = w :=
  encode_ite (encode_decodeGroup0 strict) fun h0 =>
  encode_ite wordNNN_of_fieldOp fun h1 =>
  encode_ite wordNNN_of_fieldOp fun h2 =>
  encode_ite wordXNN_of_fieldOp fun h3 =>
  encode_ite wordXNN_of_fieldOp fun h4 =>
  encode_ite (fun h => encode_ite (fun _ => wordXYN_of_fieldOp h) fun _ => rfl) fun h5 =>
  encode_ite wordXNN_of_fieldOp fun h6 =>
  encode_ite wordXNN_of_fieldOp fun h7 =>
  encode_ite encode_decodeGroup8 fun h8 =>
  encode_ite (fun h => encode_ite (fun _ => wordXYN_of_fieldOp h) fun _ => rfl) fun h9 =>
  encode_ite wordNNN_of_fieldOp fun hA =>
  encode_ite wordNNN_of_fieldOp fun hB =>
  encode_ite wordXNN_of_fieldOp fun hC =>
  encode_ite wordXYN_of_fieldOp fun hD =>
  encode_ite encode_decodeGroupE fun hE =>
  encode_decodeGroupF (nibble_eq_F _ h0 h1 h2 h3 h4 h5 h6 h7 h8 h9 hA hB hC hD hE)

end Sys2Proof

/-! # What executing an instruction can do, said once

`ExecEffect s i t` lists the ways `exec i s` can answer the next state `t`, by the part of the state that is written;
`exec_effect` is its one proof by cases over the instructions. The invariant and the writers of each part follow from
the nine ways. -/

namespace Sys2Proof.Machine

/-- `t` is `s` but for the registers, `pc`, the timers and the random input. -/
structure RegistersOnly (s t : State) : Prop where
  cfg : t.cfg = s.cfg
  mem : t.mem = s.mem
  idx : t.idx = s.idx
  stack : t.stack = s.stack
  fb : t.fb = s.fb
  run : t.run = s.run
  fault : t.fault = s.fault
  started : t.started = s.started

theorem registersOnly_update (s : State) (v : Vector Byte 16) (pc : Word) (dt st : Byte) :
    RegistersOnly s { s with v := v, pc := pc, dt := dt, st := st } := ⟨rfl, rfl, rfl, rfl, rfl, rfl, rfl, rfl⟩

/-- Where an instruction that is no return leaves `pc`: advanced, past a skip, or at a jump's target (R23, R86). -/
abbrev PcMoved (s t : State) : Prop := t.pc = s.pc + 2 ∨ t.pc = s.pc + 4 ∨ t.pc.toNat ≤ 0x10FE

/-- The ways an instruction `i` can answer `t` from `s`. -/
inductive ExecEffect (s : State) : Instr → State → Prop
  /-- A fault (R134): where `i` is the word at `pc`, its record describes the core. -/
  | fault {i : Instr} (k : Fault) (info : Nat)
      (describes : s.fetchInRange = true → s.fetchWord = encode i →
        faultDescribes s ⟨k, s.pc, some (encode i), info⟩ = true) :
      ExecEffect s i (s.halt k (some (encode i)) info)
  /-- Registers, `pc`, timers or the random input; VF by its writers only (R24, R25). -/
  | registers {i : Instr} {t : State} (frame : RegistersOnly s t) (pc : PcMoved s t)
      (flag : writesFlag i = false → namesFlagAsTarget i = false → t.reg Reg.F = s.reg Reg.F) : ExecEffect s i t
  /-- FX33 and FX55: bytes stored from I on, all inside the address space (R49, R120, R121). -/
  | store {i : Instr} (bytes : List Byte) (writer : ∃ x, i = .ldB x ∨ i = .ldMemVx x)
      (inRange : s.idx.toNat + bytes.length ≤ memSize) :
      ExecEffect s i (s.setMem (s.mem.writeBytes s.idx.toNat bytes)).advance
  /-- ANNN and FX1E: I within `I_WRAP_BITS` (R19, R118, R119). -/
  | index {i : Instr} (a : Word) (writer : (∃ nnn, i = .ldI nnn) ∨ ∃ x, i = .addI x)
      (bound : a.toNat < 2 ^ s.cfg.indexWrap.bits) : ExecEffect s i (s.setIdx a).advance
  /-- 00E0 (R93). -/
  | clear (n : Nibble) : ExecEffect s (.cls n) (s.setFb Framebuffer.dark).advance
  /-- DXYN (R94). -/
  | draw (x y : Reg) (n : Nibble) (f : Framebuffer) (hit : Bool) :
      ExecEffect s (.drw x y n) ((s.setFb f).setFlag hit).advance
  /-- 2NNN with room on the stack (R99). -/
  | call (nnn : Addr12) (room : s.stack.length < s.cfg.stackDepth) :
      ExecEffect s (.call nnn) ((s.push (s.pc + 2)).setPc (addrOf nnn))
  /-- 00EE with an entry on the stack (R97). -/
  | ret (n : Nibble) (a : Word) (top : a ∈ s.stack) : ExecEffect s (.ret n) (s.pop.setPc a)
  /-- FX0A with no key down (R127). -/
  | wait (x : Reg) : ExecEffect s (.ldVxK x) (s.setRun (.awaitingKey x))

/-! ## The shapes that write registers, `pc` and timers only -/

theorem addrOf_toNat_lt (nnn : Addr12) : (addrOf nnn).toNat < 4096 := by
  have := nnn.isLt
  simp only [addrOf, BitVec.toNat_setWidth]
  omega

theorem addrOf_add_zext16_toNat_le (nnn : Addr12) (b : Byte) : (addrOf nnn + zext16 b).toNat ≤ 0x10FE := by
  have := addrOf_toNat_lt nnn
  have := b.isLt
  simp only [zext16, BitVec.toNat_add, BitVec.toNat_setWidth]
  omega

theorem ExecEffect.of_next {s t u : State} {i : Instr} (h : (Host.Outcome.next u : Result) = .next t)
    (e : ExecEffect s i u) : ExecEffect s i t := by
  cases h
  exact e

theorem ExecEffect.of_advance {s : State} {i : Instr} : ExecEffect s i s.advance :=
  .registers (registersOnly_update s _ _ _ _) (.inl rfl) fun _ _ => rfl

theorem ExecEffect.of_setReg {s : State} {i : Instr} {x : Reg} {b : Byte}
    (target : namesFlagAsTarget i = false → x ≠ Reg.F) : ExecEffect s i (s.setReg x b).advance :=
  .registers (registersOnly_update s _ _ _ _) (.inl rfl) fun _ h => by simp [(target h).symm]

theorem ExecEffect.of_flagAndResult {s : State} {i : Instr} {x : Reg} {c : Bool} {g : State → Byte}
    (writer : writesFlag i = true) : ExecEffect s i (s.flagAndResult x c g).advance :=
  .registers (by constructor <;> simp) (.inl (by simp)) fun h => by simp [writer] at h

theorem ExecEffect.of_skipIf {s : State} {i : Instr} {c : Bool} : ExecEffect s i (s.skipIf c) :=
  .registers (registersOnly_update s _ _ _ _) (by cases c <;> simp [PcMoved]) fun _ _ => rfl

theorem ExecEffect.of_setPc {s : State} {i : Instr} {a : Word} (bound : a.toNat ≤ 0x10FE) :
    ExecEffect s i (s.setPc a) :=
  .registers (registersOnly_update s _ _ _ _) (.inr (.inr bound)) fun _ _ => rfl

/-- FX65 loads VF only when it names it as the last register (R122). -/
theorem State.loadedRegs_flag (s : State) {x : Reg} (hx : x ≠ Reg.F) : (s.loadedRegs x).get Reg.F = s.reg Reg.F := by
  have hlt : ¬ Reg.F.val ≤ x.val := fun h => hx (Fin.ext (Nat.le_antisymm (Nat.le_of_lt_succ x.isLt) h))
  rw [State.loadedRegs_get, if_neg hlt]

theorem ExecEffect.of_loadedRegs {s : State} {x : Reg} :
    ExecEffect s (.ldVxMem x) (State.advance { s with v := s.loadedRegs x }) := by
  refine .registers (by constructor <;> simp) (.inl (by simp)) fun _ hx => ?_
  have hxF : x ≠ Reg.F := by simpa [namesFlagAsTarget] using hx
  change (s.loadedRegs x).get Reg.F = s.reg Reg.F
  exact s.loadedRegs_flag hxF

/-! ## The shapes that check first -/

/-- A guarded memory instruction: if its effect in range is one, so is its answer (R49). -/
theorem ExecEffect.of_withDataRange {s t e : State} {i : Instr} {count : Nat}
    (h : withDataRange (encode i) count s e = .next t) (inRange : s.dataInRange count = true → ExecEffect s i e) :
    ExecEffect s i t := by
  obtain ⟨hr, rfl⟩ | ⟨-, rfl⟩ := withDataRange_cases _ _ _ _ _ h
  · exact inRange hr
  · exact .fault _ _ fun hf hw => by simp [faultDescribes, hf, hw]

/-- A key skip skips, or faults with a value of one byte above 0xF (R125). -/
theorem ExecEffect.of_keySkip {s t : State} {i : Instr} {x : Reg} {wanted : Bool}
    (h : keySkip (encode i) x wanted s = .next t) : ExecEffect s i t := by
  obtain ⟨k, -, rfl⟩ | ⟨hk, rfl⟩ := keySkip_cases _ _ _ _ _ h
  · exact .of_skipIf
  · obtain ⟨-, hlow⟩ := (keyIndex_none_iff _ _).1 hk
    have hhigh : (s.reg x).toNat ≤ 0xFF := Nat.le_of_lt_succ (s.reg x).isLt
    exact .fault _ _ fun _ hw => by simp [faultDescribes, hw, Nat.lt_of_succ_le hlow, hhigh]

/-- The bound of R49 for a count of one or more. -/
theorem idx_add_le_of_dataInRange {s : State} {n : Nat} (h : s.dataInRange (n + 1) = true) :
    s.idx.toNat + (n + 1) ≤ memSize :=
  ((dataInRange_iff s (n + 1)).1 h).resolve_left n.succ_ne_zero

theorem execCall_effect {s t : State} {nnn : Addr12} (h : execCall nnn s = .next t) :
    ExecEffect s (.call nnn) t := by
  unfold execCall at h
  split at h
  next hfull =>
    rw [raise_next _ _ _ _ _ h]
    exact .fault _ _ fun _ hw => by simp [faultDescribes, hw, hfull]
  next hroom => exact .of_next h (.call nnn (by simpa [State.stackFull] using hroom))

theorem execRet_effect {s t : State} {n : Nibble} (h : execRet n s = .next t) : ExecEffect s (.ret n) t := by
  unfold execRet at h
  split at h
  next htop =>
    rw [raise_next _ _ _ _ _ h]
    exact .fault _ _ fun _ hw => by simpa [faultDescribes, hw, State.top] using htop
  next a htop => exact .of_next h (.ret n a (List.mem_of_getLast? htop))

theorem execLdVxK_effect {s t : State} {x : Reg} (h : execLdVxK x s = .next t) : ExecEffect s (.ldVxK x) t := by
  unfold execLdVxK at h
  split at h
  · exact .of_next h (.of_setReg ne_of_beq_false)
  · exact .of_next h (.wait x)

theorem State.indexSum_toNat_lt (s : State) (x : Reg) : (s.indexSum x).toNat < 2 ^ s.cfg.indexWrap.bits :=
  Nat.lt_of_le_of_lt (BitVec.toNat_ofNat _ 16 ▸ Nat.mod_le _ _) (Nat.mod_lt _ (Nat.two_pow_pos _))

theorem addrOf_toNat_lt_indexWrap (nnn : Addr12) (c : IndexWrap) : (addrOf nnn).toNat < 2 ^ c.bits :=
  Nat.lt_of_lt_of_le (addrOf_toNat_lt nnn) (by cases c <;> decide)

/-- Everything an instruction can do (R84). -/
theorem exec_effect {i : Instr} {s t : State} (h : exec i s = .next t) : ExecEffect s i t := by
  cases i with
  | cls n => exact .of_next h (.clear n)
  | ret n => exact execRet_effect h
  | jp nnn => exact .of_next h (.of_setPc (by have := addrOf_toNat_lt nnn; omega))
  | call nnn => exact execCall_effect h
  | seByte x nn => exact .of_next h .of_skipIf
  | sneByte x nn => exact .of_next h .of_skipIf
  | seReg x y n => exact .of_next h .of_skipIf
  | ldByte x nn => exact .of_next h (.of_setReg ne_of_beq_false)
  | addByte x nn => exact .of_next h (.of_setReg ne_of_beq_false)
  | ldReg x y => exact .of_next h (.of_setReg ne_of_beq_false)
  | orReg x y => exact .of_next h (.of_setReg ne_of_beq_false)
  | andReg x y => exact .of_next h (.of_setReg ne_of_beq_false)
  | xorReg x y => exact .of_next h (.of_setReg ne_of_beq_false)
  | addReg x y => exact .of_next h (.of_flagAndResult rfl)
  | subReg x y => exact .of_next h (.of_flagAndResult rfl)
  | shr x y => exact .of_next h (.of_flagAndResult rfl)
  | subnReg x y =>
    exact .of_next h (.registers (registersOnly_update s _ _ _ _) (.inl rfl) fun hw => nomatch hw)
  | shl x y => exact .of_next h (.of_flagAndResult rfl)
  | sneReg x y n => exact .of_next h .of_skipIf
  | ldI nnn => exact .of_next h (.index _ (.inl ⟨nnn, rfl⟩) (addrOf_toNat_lt_indexWrap nnn _))
  | jpV0 nnn => exact .of_next h (.of_setPc (addrOf_add_zext16_toNat_le nnn _))
  | rnd x nn =>
    refine .of_next h (.registers (by constructor <;> simp) (.inl (by simp)) fun _ hx => ?_)
    simp [(ne_of_beq_false hx).symm]
  | drw x y n => exact .of_withDataRange h fun _ => .draw x y n _ _
  | skp x => exact .of_keySkip h
  | sknp x => exact .of_keySkip h
  | ldVxDt x => exact .of_next h (.of_setReg ne_of_beq_false)
  | ldVxK x => exact execLdVxK_effect h
  | ldDtVx x =>
    exact .of_next h (.registers (registersOnly_update s _ _ _ _) (.inl rfl) fun _ _ => rfl)
  | ldStVx x =>
    exact .of_next h (.registers (registersOnly_update s _ _ _ _) (.inl rfl) fun _ _ => rfl)
  | addI x => exact .of_next h (.index _ (.inr ⟨x, rfl⟩) (s.indexSum_toNat_lt x))
  | ldB x => exact .of_withDataRange h fun hr => .store _ ⟨x, .inl rfl⟩ (idx_add_le_of_dataInRange hr)
  | ldMemVx x =>
    exact .of_withDataRange h fun hr =>
      .store _ ⟨x, .inr rfl⟩ (by simpa using idx_add_le_of_dataInRange hr)
  | ldVxMem x => exact .of_withDataRange h fun _ => .of_loadedRegs
  | dw w => exact .of_next h .of_advance

/-! # Who writes what (`10_state.md` R18, R25, R30, R36; `20_memory.md` R47) -/

/-- Settles O21, by the ways an instruction can act. -/
theorem eachPartHasItsWriters : Obligations.EachPartHasItsWriters := by
  intro i s t h
  cases exec_effect h with
  | fault k info _ => exact ⟨.inl fun _ => rfl, .inl rfl, .inl rfl, .inl fun _ => rfl⟩
  | registers frame _ _ =>
    exact ⟨.inl fun _ => by simp [State.byteAt, frame.mem], .inl frame.idx, .inl frame.stack,
      .inl fun _ => by rw [frame.fb]⟩
  | store bytes writer _ => exact ⟨.inr writer, .inl rfl, .inl rfl, .inl fun _ => rfl⟩
  | index a writer _ => exact ⟨.inl fun _ => rfl, .inr writer, .inl rfl, .inl fun _ => rfl⟩
  | clear n => exact ⟨.inl fun _ => rfl, .inl rfl, .inl rfl, .inr (.inl ⟨n, rfl⟩)⟩
  | draw x y n _ _ => exact ⟨.inl fun _ => rfl, .inl rfl, .inl rfl, .inr (.inr ⟨x, y, n, rfl⟩)⟩
  | call nnn _ => exact ⟨.inl fun _ => rfl, .inl rfl, .inr (.inl ⟨nnn, rfl⟩), .inl fun _ => rfl⟩
  | ret n _ _ => exact ⟨.inl fun _ => rfl, .inl rfl, .inr (.inr ⟨n, rfl⟩), .inl fun _ => rfl⟩
  | wait x => exact ⟨.inl fun _ => rfl, .inl rfl, .inl rfl, .inl fun _ => rfl⟩

/-- Settles O22: of the ways an instruction can act, only those of the register writers and of DXYN reach VF. -/
theorem onlyFlagInstructionsWriteVF : Obligations.OnlyFlagInstructionsWriteVF := by
  intro i s t h hwrites hnames
  cases exec_effect h with
  | registers _ _ flag => exact flag hwrites hnames
  | draw => cases hwrites
  | fault | store | index | clear | call | ret | wait => rfl

/-! # The invariant in two parts

`DataInv` bounds what the state holds; `ControlInv` says, for each run state, what the fault record, `started` and the
word at `pc` are. -/

/-- R23, R43: the parameters, memory, stack, I and `pc` are in their bounds. -/
structure DataInv (s : State) : Prop where
  cfg : ConfigLegal s.cfg
  mem : Memory.wf s.mem = true
  stack : StackBounded s
  idx : IndexBounded s
  pc : s.pc.toNat ≤ 0x10FE
  returns : ∀ a ∈ s.stack, a.toNat ≤ 0x1000

/-- R28, R39, R43, R134: what holds in each run state. -/
inductive ControlInv (s : State) : Prop
  | running (run : s.run = .running) (fault : s.fault = none)
  | waiting (x : Reg) (run : s.run = .awaitingKey x) (fault : s.fault = none) (started : s.started = true)
      (fetches : s.fetchInRange = true) (word : s.fetchWord = encode (.ldVxK x))
  | halted (f : FaultRecord) (run : s.run = .halted) (fault : s.fault = some f) (started : s.started = true)
      (describes : faultDescribes s f = true)

theorem ControlInv.of_inv {s : State} (halted : HaltedIffFault s) (started : StartedIfStopped s)
    (waits : waitsAtKeyLoad s = true) (record : faultRecordTrue s = true) : ControlInv s := by
  cases hr : s.run with
  | running => exact .running hr (by simpa [HaltedIffFault, hr] using halted)
  | awaitingKey x =>
    obtain ⟨hfetch, hword⟩ : s.fetchInRange = true ∧ s.fetchWord = encode (.ldVxK x) := by
      simpa [waitsAtKeyLoad, hr] using waits
    exact .waiting x hr (by simpa [HaltedIffFault, hr] using halted) (started (by simp [hr])) hfetch hword
  | halted =>
    obtain ⟨f, hf⟩ := Option.isSome_iff_exists.1 (halted.1 hr)
    exact .halted f hr hf (started (by simp [hr])) (by simpa [faultRecordTrue, hf] using record)

theorem ControlInv.inv {s : State} (h : ControlInv s) :
    HaltedIffFault s ∧ StartedIfStopped s ∧ waitsAtKeyLoad s = true ∧ faultRecordTrue s = true := by
  cases h with
  | running run fault => simp [HaltedIffFault, StartedIfStopped, waitsAtKeyLoad, faultRecordTrue, run, fault]
  | waiting x run fault started fetches word =>
    simp [HaltedIffFault, StartedIfStopped, waitsAtKeyLoad, faultRecordTrue, run, fault, started, fetches, word]
  | halted f run fault started describes =>
    simp [HaltedIffFault, StartedIfStopped, waitsAtKeyLoad, faultRecordTrue, run, fault, started, describes]

theorem ControlInv.fault_of_running {s : State} (h : ControlInv s) (run : s.run = .running) : s.fault = none := by
  cases h with
  | running _ fault => exact fault
  | waiting _ run' => simp [run] at run'
  | halted _ run' => simp [run] at run'

theorem ControlInv.of_awaitingKey {s : State} {x : Reg} (h : ControlInv s) (run : s.run = .awaitingKey x) :
    s.fault = none ∧ s.fetchInRange = true := by
  cases h with
  | running run' => simp [run] at run'
  | waiting _ _ fault _ fetches _ => exact ⟨fault, fetches⟩
  | halted _ run' => simp [run] at run'

theorem ControlInv.running_of_not_started {s : State} (h : ControlInv s) (notStarted : s.started = false) :
    s.run = .running ∧ s.fault = none := by
  cases h with
  | running run fault => exact ⟨run, fault⟩
  | waiting _ _ _ started => simp [notStarted] at started
  | halted _ _ _ started => simp [notStarted] at started

theorem inv_iff (s : State) : s.Inv ↔ DataInv s ∧ ControlInv s := by
  constructor
  · rintro ⟨cfg, mem, stack, idx, ⟨pc, returns⟩, halted, started, waits, record⟩
    exact ⟨⟨cfg, mem, stack, idx, pc, by simpa using returns⟩, .of_inv halted started waits record⟩
  · rintro ⟨⟨cfg, mem, stack, idx, pc, returns⟩, control⟩
    exact ⟨cfg, mem, stack, idx, ⟨pc, by simpa using returns⟩, control.inv⟩

/-- Settles O14: under any legal configuration the core is running, with no record, an empty stack and `pc` at 0x200. -/
theorem invariantHoldsAtReset : Obligations.InvariantHoldsAtReset := by
  have legal (c : Config) (hc : ConfigLegal c) : (State.initial c).Inv := by
    have ⟨_, _, hmem, _⟩ := hc
    have hpc : (0x0200 : Word).toNat ≤ 0x10FE := by decide
    exact (inv_iff _).2 ⟨⟨hc, hmem, Nat.zero_le _, Nat.two_pow_pos _, hpc, nofun⟩, .running rfl rfl⟩
  exact ⟨legal _ (by decide), legal⟩

/-! # Every step keeps the invariant (R43) -/

/-- The bounds are about the parameters, memory, I, the stack and `pc`. -/
theorem DataInv.of_eq {s t : State} (hd : DataInv s) (cfg : t.cfg = s.cfg) (mem : t.mem = s.mem)
    (idx : t.idx = s.idx) (stack : t.stack = s.stack) (pc : t.pc.toNat ≤ 0x10FE) : DataInv t where
  cfg := cfg ▸ hd.cfg
  mem := mem ▸ hd.mem
  stack := by simpa only [StackBounded, stack, cfg] using hd.stack
  idx := by simpa only [IndexBounded, idx, cfg] using hd.idx
  pc := pc
  returns := stack ▸ hd.returns

/-- The next instruction's address is at most 0x1000 where the fetch is in range (R23). -/
theorem pc_add_two_le {s : State} (hf : s.fetchInRange = true) : (s.pc + 2).toNat ≤ 0x1000 := by
  have hpc := (fetchInRange_iff s).1 hf
  bv_omega

/-- No instruction that is no return takes `pc` past 0x10FE (R23). -/
theorem PcMoved.bounded {s t : State} (h : PcMoved s t) (hf : s.fetchInRange = true) : t.pc.toNat ≤ 0x10FE := by
  obtain h | h | h := h
  · rw [h]
    exact (pc_add_two_le hf).trans (by decide)
  · have hpc := (fetchInRange_iff s).1 hf
    bv_omega
  · exact h

theorem advance_bounded {s : State} (hf : s.fetchInRange = true) : s.advance.pc.toNat ≤ 0x10FE :=
  PcMoved.bounded (s := s) (.inl rfl) hf

/-- An instruction at an address in range keeps the bounds. -/
theorem exec_keeps_dataInv {i : Instr} {s t : State} (h : exec i s = .next t) (hd : DataInv s)
    (hf : s.fetchInRange = true) : DataInv t := by
  cases exec_effect h with
  | fault k info _ => exact hd.of_eq rfl rfl rfl rfl hd.pc
  | registers frame pc _ => exact hd.of_eq frame.cfg frame.mem frame.idx frame.stack (pc.bounded hf)
  | store bytes _ inRange =>
    exact { hd with mem := Memory.wf_writeBytes bytes hd.mem inRange, pc := advance_bounded hf }
  | index a _ bound => exact { hd with idx := bound, pc := advance_bounded hf }
  | clear n => exact hd.of_eq rfl rfl rfl rfl (advance_bounded hf)
  | draw x y n f hit => exact hd.of_eq rfl rfl rfl rfl (advance_bounded hf)
  | call nnn room =>
    exact { hd with
      stack := by simpa [StackBounded] using room
      pc := (addrOf_toNat_lt nnn).le.trans (by decide)
      returns := by simpa [or_imp, forall_and] using ⟨hd.returns, pc_add_two_le hf⟩ }
  | ret n a top =>
    exact { hd with
      stack := by simpa [StackBounded] using Nat.le_succ_of_le hd.stack
      pc := (hd.returns a top).trans (by decide)
      returns := fun b hb => hd.returns b (List.mem_of_mem_dropLast hb) }
  | wait x => exact hd.of_eq rfl rfl rfl rfl hd.pc

/-- The instruction at `pc`, run by a started core, leaves each run state as it must be. -/
theorem exec_keeps_controlInv {i : Instr} {s t : State} (h : exec i s = .next t) (run : s.run = .running)
    (fault : s.fault = none) (started : s.started = true) (hf : s.fetchInRange = true)
    (hw : s.fetchWord = encode i) : ControlInv t := by
  cases exec_effect h with
  | fault k info describes => exact .halted _ rfl rfl started (describes hf hw)
  | registers frame _ _ => exact .running (frame.run.trans run) (frame.fault.trans fault)
  | wait x => exact .waiting x rfl fault started hf hw
  | store | index | clear | draw | call | ret => exact .running run fault

/-- The poll of a core that waits at a fetchable FX0A keeps the invariant (R128). -/
theorem keyWaitPoll_keeps_inv {x : Reg} {s t : State} (h : keyWaitPoll x s = .next t) (hs : s.Inv)
    (run : s.run = .awaitingKey x) : t.Inv := by
  obtain ⟨hd, hc⟩ := (inv_iff s).1 hs
  obtain ⟨k, -, rfl⟩ | ⟨-, rfl⟩ := keyWaitPoll_cases x s t h
  · obtain ⟨fault, fetches⟩ := hc.of_awaitingKey run
    exact (inv_iff _).2 ⟨hd.of_eq rfl rfl rfl rfl (advance_bounded fetches), .running rfl fault⟩
  · exact hs

/-- Setting `started` keeps the invariant (R39, R85). -/
theorem State.Inv.start {s : State} (h : s.Inv) : s.start.Inv := by
  obtain ⟨cfg, mem, stack, idx, pc, halted, -, waits, record⟩ := h
  exact ⟨cfg, mem, stack, idx, pc, halted, fun _ => rfl, waits, record⟩

/-- Settles O15, by what a step does in each run state. -/
theorem everyStepKeepsTheInvariant : Obligations.EveryStepKeepsTheInvariant := by
  intro s t hs h
  have hstart : s.start.Inv := hs.start
  obtain ⟨hd, hc⟩ := (inv_iff s.start).1 hstart
  obtain ⟨-, rfl⟩ | ⟨x, run, hpoll⟩ | ⟨run, hf, hexec⟩ | ⟨run, hf, rfl⟩ := step_cases s t h
  · exact hs
  · exact keyWaitPoll_keeps_inv hpoll hstart run
  · have fault : s.fault = none := hc.fault_of_running run
    have hw : s.fetchWord = encode (decode s.cfg.strictDecode s.fetchWord) := (encode_decode _ _).symm
    exact (inv_iff t).2 ⟨exec_keeps_dataInv hexec hd hf, exec_keeps_controlInv hexec run fault rfl hf hw⟩
  · have describes : faultDescribes s ⟨.outOfBounds, s.pc, none, firstOutside s.pc⟩ = true := by
      simp [faultDescribes, hf]
    exact (inv_iff _).2 ⟨hd.of_eq rfl rfl rfl rfl hd.pc, .halted _ rfl rfl rfl describes⟩

/-! # Every host operation keeps the invariant (R4, R43) -/

/-- What `STEP(r)` answers comes from a step with `r` as its random byte (R79, R90). -/
theorem stepWithByte_cases {r : Byte} {s t : State} {reply : Reply} (h : stepWithByte r s = .next (t, reply)) :
    ∃ u, step { s with rand := [r] } = .next u ∧ t = { u with rand := s.rand } ∧ reply = u.stepReply := by
  unfold stepWithByte at h
  split at h
  next u hu =>
    cases h
    exact ⟨u, hu, rfl, rfl⟩
  all_goals cases h

/-- The invariant does not speak of the random input. -/
theorem inv_withRand (s : State) (bytes : List Byte) : State.Inv { s with rand := bytes } ↔ s.Inv := Iff.rfl

/-- What `LOAD` answers comes from a core that has not been stepped: the program is in memory where it fits, and the core
is as before where it does not (R154 to R156). -/
theorem perform_load_cases {bytes : List Byte} {s t : State} {reply : Reply}
    (h : perform (.load bytes) s = .next (t, reply)) :
    s.started = false ∧ ((programFits bytes.length = true ∧ t = s.loaded bytes) ∨ t = s) := by
  cases hs : s.started with
  | true => simp [perform, hs] at h
  | false =>
    cases hf : programFits bytes.length with
    | true =>
      rw [perform_load_fits bytes s hs hf] at h
      cases h
      exact ⟨rfl, .inl ⟨rfl, rfl⟩⟩
    | false =>
      rw [perform_load_too_large bytes s hs hf] at h
      cases h
      exact ⟨rfl, .inr rfl⟩

/-- A program that fits, loaded before the first step, keeps the invariant: the core is running, so no word is waited at
and no record is held. -/
theorem loaded_keeps_inv {bytes : List Byte} {s : State} (hs : s.Inv) (hfits : programFits bytes.length = true)
    (notStarted : s.started = false) : (s.loaded bytes).Inv := by
  obtain ⟨hd, hc⟩ := (inv_iff s).1 hs
  have inRange : progStart + bytes.length ≤ memSize := by
    rw [Nat.add_comm]
    exact of_decide_eq_true hfits
  obtain ⟨run, fault⟩ := hc.running_of_not_started notStarted
  exact (inv_iff _).2 ⟨{ hd with mem := Memory.wf_writeBytes bytes hd.mem inRange }, .running run fault⟩

/-- Settles O16, by the operations: `RESET` starts anew, `LOAD` meets a running core, `STEP(r)` is a step, and the others
write nothing the invariant speaks of. -/
theorem everyHostOperationKeepsTheInvariant : Obligations.EveryHostOperationKeepsTheInvariant := by
  intro op s t reply hs h
  cases op with
  | reset =>
    cases h
    exact invariantHoldsAtReset.2 s.cfg hs.1
  | load bytes =>
    obtain ⟨notStarted, ⟨hfits, rfl⟩ | rfl⟩ := perform_load_cases h
    · exact loaded_keeps_inv hs hfits notStarted
    · exact hs
  | step r =>
    obtain ⟨u, hu, rfl, -⟩ := stepWithByte_cases h
    exact (inv_withRand u s.rand).2 (everyStepKeepsTheInvariant _ u ((inv_withRand s [r]).2 hs) hu)
  | keysWrite | keysClear | tick | fbRead | statusRead =>
    cases h
    exact hs

end Sys2Proof.Machine

/-! # The fetch and the data accesses (`20_memory.md` R45, R48, R49, R57) -/

namespace Sys2Proof.Machine

/-! ## The fetch -/

/-- A step of a running core whose two bytes at `pc` exist runs the word they spell, the byte at `pc` first (R45, R82). -/
theorem step_runs_bytes {s : State} {hi lo : Byte} (run : s.run = .running) (inRange : s.pc.toNat + 1 < 4096)
    (hhi : s.byteAt s.pc.toNat = hi) (hlo : s.byteAt (s.pc.toNat + 1) = lo) :
    step s = exec (decode s.cfg.strictDecode (wordOfBytes hi lo)) s.start := by
  rw [step_running s run ((fetchInRange_iff s).2 inRange), State.fetchWord, hhi, hlo]

/-- Settles O6: two bytes decode to the instruction of the word they spell. -/
theorem stepRunsTheDecodedInstruction : Obligations.StepRunsTheDecodedInstruction := by
  intro s i run inRange hdecode
  cases hdecode
  exact step_runs_bytes run inRange rfl rfl

/-- Settles O7, by the step of a running core that cannot fetch. -/
theorem fetchPastMemoryFaults : Obligations.FetchPastMemoryFaults := by
  intro s run hpc
  have outside : s.fetchInRange = false := by
    rw [← Bool.not_eq_true, fetchInRange_iff]
    omega
  exact step_fetch_fault s run outside

/-! ## The guarded data accesses -/

/-- A memory instruction with no byte of its range outside has its effect (R49). -/
theorem withDataRange_inside {w : Word} {count : Nat} {s e : State} (h : count = 0 ∨ s.idx.toNat + count ≤ 4096) :
    withDataRange w count s e = .next e := by
  rw [withDataRange, if_pos ((dataInRange_iff s count).2 h)]

/-- A memory instruction with a byte of its range outside only takes the fault (R49). -/
theorem withDataRange_outside {w : Word} {count : Nat} {s e : State} (hcount : count ≠ 0)
    (h : 4096 < s.idx.toNat + count) :
    withDataRange w count s e = .next (s.halt .outOfBounds (some w) (firstOutside s.idx)) := by
  rw [withDataRange, if_neg (by rw [dataInRange_iff]; omega), raise]

/-- Settles O19: each of the four is an effect that keeps the control state, behind the one bound of R49. -/
theorem dataRangeIsCheckedFirst : Obligations.DataRangeIsCheckedFirst := by
  intro i count s hi
  obtain ⟨e, hexec, hrun, hfault⟩ :
      ∃ e, exec i s = withDataRange (encode i) count s e ∧ e.run = s.run ∧ e.fault = s.fault := by
    obtain ⟨x, y, n, rfl, rfl⟩ | ⟨x, rfl, rfl⟩ | ⟨x, rfl, rfl⟩ | ⟨x, rfl, rfl⟩ := hi
    · exact ⟨_, rfl, rfl, rfl⟩
    · exact ⟨_, rfl, rfl, rfl⟩
    · exact ⟨_, rfl, rfl, rfl⟩
    · exact ⟨_, rfl, rfl, rfl⟩
  constructor
  · rintro ⟨hcount, houtside⟩
    exact hexec.trans (withDataRange_outside (by omega) (by omega))
  · intro hinside
    exact ⟨e, hexec.trans (withDataRange_inside (by omega)), hrun, hfault⟩

/-! ## Stored bytes are fetched as stored -/

/-- Bytes stored at rising addresses read back in order (R52). -/
theorem Memory.read_writeBytes_inside (m : Memory) (a : Nat) {k : Nat} {bs : List Byte} (h : k < bs.length) :
    (m.writeBytes a bs).read (a + k) = bs.getD k 0 := by
  rw [Memory.read_writeBytes, if_pos (by omega), Nat.add_sub_cancel_left]

/-- FX55 in range stores V0 to V[x] from I on (R121). -/
theorem exec_ldMemVx_inside {x : Reg} {s : State} (h : s.idx.toNat + x.val ≤ 0xFFF) :
    exec (.ldMemVx x) s = .next (s.setMem (s.mem.writeBytes s.idx.toNat (s.regsUpTo x))).advance :=
  withDataRange_inside (by omega)

/-- FX33 in range stores the three digits of V[x] from I on (R120). -/
theorem exec_ldB_inside {x : Reg} {s : State} (h : s.idx.toNat + 2 ≤ 0xFFF) :
    exec (.ldB x) s = .next (s.setMem (s.mem.writeBytes s.idx.toNat (decimalDigits (s.reg x)))).advance :=
  withDataRange_inside (by omega)

/-- After FX55 in range, the byte at I + r is V[r] (R121). -/
theorem exec_ldMemVx_byteAt {x r : Reg} {s t : State} (inRange : s.idx.toNat + x.val ≤ 0xFFF)
    (h : exec (.ldMemVx x) s = .next t) (hr : r ≤ x) : t.byteAt (s.idx.toNat + r.val) = s.reg r := by
  have hlen : r.val < (s.regsUpTo x).length := by
    rw [State.regsUpTo_length]
    exact Nat.lt_succ_of_le hr
  obtain rfl := Host.Outcome.next.inj ((exec_ldMemVx_inside inRange).symm.trans h)
  exact (Memory.read_writeBytes_inside s.mem s.idx.toNat hlen).trans (s.regsUpTo_getD x r hr)

/-- After FX33 in range, the byte at I + k is digit k of V[x] (R120). -/
theorem exec_ldB_byteAt {x : Reg} {k : Nat} {s t : State} (inRange : s.idx.toNat + 2 ≤ 0xFFF)
    (h : exec (.ldB x) s = .next t) (hk : k < 3) :
    t.byteAt (s.idx.toNat + k) = (decimalDigits (s.reg x)).getD k 0 := by
  obtain rfl := Host.Outcome.next.inj ((exec_ldB_inside inRange).symm.trans h)
  exact Memory.read_writeBytes_inside s.mem s.idx.toNat hk

/-- The digits of a byte are the bytes with the digits' values (R120). -/
theorem decimalDigits_eq {b hundreds tens units : Byte} (hh : hundreds.toNat = b.toNat / 100)
    (ht : tens.toNat = b.toNat / 10 % 10) (hu : units.toNat = b.toNat % 10) :
    decimalDigits b = [hundreds, tens, units] := by
  simp [decimalDigits, ← hh, ← ht, ← hu]

/-- Settles O48: the bytes read back as stored, so the fetch spells their word. -/
theorem fetchSeesEarlierStores : Obligations.FetchSeesEarlierStores := by
  constructor
  · intro x r r' s t v inRange hr' hsucc hexec keeps run hpc
    have hr'x : r'.val ≤ x.val := hr'
    have hrx : r.val ≤ x.val := by omega
    have hhi := exec_ldMemVx_byteAt inRange hexec hrx
    have hlo := exec_ldMemVx_byteAt inRange hexec hr'
    refine step_runs_bytes run (by omega) ?_ ?_
    · rw [keeps, hpc, hhi]
    · rw [keeps, hpc, Nat.add_assoc, ← hsucc, hlo]
  · intro x hundreds tens units s t v inRange hh ht hu hexec keeps run
    have stored (k : Nat) (hk : k < 3) : v.byteAt (s.idx.toNat + k) = [hundreds, tens, units].getD k 0 := by
      rw [keeps, exec_ldB_byteAt inRange hexec hk, decimalDigits_eq hh ht hu]
    constructor
    · intro hpc
      refine step_runs_bytes run (by omega) ?_ ?_
      · rw [hpc]
        exact stored 0 (by decide)
      · rw [hpc]
        exact stored 1 (by decide)
    · intro hpc
      refine step_runs_bytes run (by omega) ?_ ?_
      · rw [hpc]
        exact stored 1 (by decide)
      · rw [hpc, Nat.add_assoc]
        exact stored 2 (by decide)

end Sys2Proof.Machine

/-! # The decoder, the encoder and the opcode table agree (`30_encoding.md` R63 to R75) -/

namespace Sys2Proof

/-! ## The rows of the opcode table, under the mask of `STRICT_DECODE` -/

/-- The mask of a row under `STRICT_DECODE = strict` (R66, R68, R69). -/
def OpcodeRow.maskOf (strict : Bool) (r : OpcodeRow) : Word := if strict then r.mask else r.maskNonStrict

theorem OpcodeRow.matchesWord_iff {r : OpcodeRow} {strict : Bool} {w : Word} :
    r.matchesWord strict w = true ↔ w &&& r.maskOf strict = r.pattern := beq_iff_eq

theorem unrecognized_iff {strict : Bool} {w : Word} :
    unrecognized strict w = true ↔ ∀ r ∈ opcodeTable, ¬ r.matchesWord strict w = true := by
  simp [unrecognized]

/-- Two rows that match one word agree on the bits that both fix. -/
theorem OpcodeRow.patterns_agree {r r' : OpcodeRow} {strict : Bool} {w : Word} (h : r.matchesWord strict w = true)
    (h' : r'.matchesWord strict w = true) : r.pattern &&& r'.maskOf strict = r'.pattern &&& r.maskOf strict := by
  rw [← matchesWord_iff.1 h, ← matchesWord_iff.1 h', BitVec.and_assoc, BitVec.and_assoc,
    BitVec.and_comm (r.maskOf strict)]

/-- Any two rows of the table differ in a bit that both fix. -/
theorem opcodeTable_patterns_differ (strict : Bool) :
    opcodeTable.Pairwise fun r r' => r.pattern &&& r'.maskOf strict ≠ r'.pattern &&& r.maskOf strict := by
  cases strict <;> decide

/-- No word matches two rows (R66). -/
theorem matching_row_unique {strict : Bool} {w : Word} {m n : Nat} {r r' : OpcodeRow} (hm : opcodeTable[m]? = some r)
    (hn : opcodeTable[n]? = some r') (h : r.matchesWord strict w = true) (h' : r'.matchesWord strict w = true) :
    m = n := by
  obtain ⟨mlt, rfl⟩ := List.getElem?_eq_some_iff.1 hm
  obtain ⟨nlt, rfl⟩ := List.getElem?_eq_some_iff.1 hn
  have differ := List.pairwise_iff_getElem.1 (opcodeTable_patterns_differ strict)
  rcases lt_trichotomy m n with hlt | heq | hlt
  · exact absurd (OpcodeRow.patterns_agree h h') (differ m n mlt nlt hlt)
  · exact heq
  · exact absurd (OpcodeRow.patterns_agree h' h) (differ n m nlt mlt hlt)

/-- An instruction's row number is the number of a row. -/
theorem exists_row_of_rowNumber {i : Instr} {k : Nat} (hk : i.rowNumber = some k) :
    ∃ n row, k = n + 1 ∧ opcodeTable[n]? = some row := by
  cases i <;> cases hk <;> exact ⟨_, _, rfl, rfl⟩

open Laws in
/-- The word of every well-formed instruction matches the row it stands for (R66). -/
theorem matchesItsRow : ∀ i : Instr, MatchesItsRow.Statement i
  | .cls x => MatchesItsRow.cls x
  | .ret x => MatchesItsRow.ret x
  | .jp nnn => MatchesItsRow.jp nnn
  | .call nnn => MatchesItsRow.call nnn
  | .seByte x nn => MatchesItsRow.seByte x nn
  | .sneByte x nn => MatchesItsRow.sneByte x nn
  | .seReg x y n => MatchesItsRow.seReg x y n
  | .ldByte x nn => MatchesItsRow.ldByte x nn
  | .addByte x nn => MatchesItsRow.addByte x nn
  | .ldReg x y => MatchesItsRow.ldReg x y
  | .orReg x y => MatchesItsRow.orReg x y
  | .andReg x y => MatchesItsRow.andReg x y
  | .xorReg x y => MatchesItsRow.xorReg x y
  | .addReg x y => MatchesItsRow.addReg x y
  | .subReg x y => MatchesItsRow.subReg x y
  | .shr x y => MatchesItsRow.shr x y
  | .subnReg x y => MatchesItsRow.subnReg x y
  | .shl x y => MatchesItsRow.shl x y
  | .sneReg x y n => MatchesItsRow.sneReg x y n
  | .ldI nnn => MatchesItsRow.ldI nnn
  | .jpV0 nnn => MatchesItsRow.jpV0 nnn
  | .rnd x nn => MatchesItsRow.rnd x nn
  | .drw x y n => MatchesItsRow.drw x y n
  | .skp x => MatchesItsRow.skp x
  | .sknp x => MatchesItsRow.sknp x
  | .ldVxDt x => MatchesItsRow.ldVxDt x
  | .ldVxK x => MatchesItsRow.ldVxK x
  | .ldDtVx x => MatchesItsRow.ldDtVx x
  | .ldStVx x => MatchesItsRow.ldStVx x
  | .addI x => MatchesItsRow.addI x
  | .ldB x => MatchesItsRow.ldB x
  | .ldMemVx x => MatchesItsRow.ldMemVx x
  | .ldVxMem x => MatchesItsRow.ldVxMem x
  | .dw w => MatchesItsRow.dw w

/-! ## What the decoder answers is well-formed -/

/-- Every row of group `op` fixes the field of `l` bits from bit `k` on, to one of the values `vs` (R67). -/
abbrev SelectsOn (strict : Bool) (op : Nibble) (k l : Nat) (vs : List (BitVec l)) : Prop :=
  ∀ r ∈ opcodeTable, fieldOp r.pattern = op →
    (r.maskOf strict).extractLsb' k l = BitVec.allOnes l ∧ r.pattern.extractLsb' k l ∈ vs

/-- A row that fixes a whole field matches only words with its value in that field. -/
theorem OpcodeRow.field_of_matchesWord {r : OpcodeRow} {strict : Bool} {w : Word} {k l : Nat}
    (h : r.matchesWord strict w = true) (fixed : (r.maskOf strict).extractLsb' k l = BitVec.allOnes l) :
    w.extractLsb' k l = r.pattern.extractLsb' k l := by
  rw [← matchesWord_iff.1 h, BitVec.extractLsb'_and, fixed, BitVec.and_allOnes]

/-- Every row fixes op (R66). -/
theorem opcodeTable_fixes_op (strict : Bool) :
    ∀ r ∈ opcodeTable, (r.maskOf strict).extractLsb' 12 4 = BitVec.allOnes 4 := by
  cases strict <;> decide

/-- A word is unrecognized when a field that its group selects on has a value of no row (R67, R131). -/
theorem unrecognized_of_field {strict : Bool} {w : Word} {op : Nibble} {k l : Nat} {vs : List (BitVec l)}
    (selects : SelectsOn strict op k l vs) (hop : fieldOp w = op) (hvs : vs.Forall (w.extractLsb' k l ≠ ·)) :
    unrecognized strict w = true := by
  refine unrecognized_iff.2 fun r hr hmatch => ?_
  have rop : fieldOp r.pattern = op := (r.field_of_matchesWord hmatch (opcodeTable_fixes_op strict r hr)).symm.trans hop
  obtain ⟨fixed, value⟩ := selects r hr rop
  exact List.forall_iff_forall_mem.1 hvs _ value (r.field_of_matchesWord hmatch fixed)

/-- One choice of the decoder: it is enough that both instructions are well-formed. -/
theorem wf_ite {strict : Bool} {c : Prop} [Decidable c] {i j : Instr} (hi : c → i.wf strict = true)
    (hj : ¬ c → j.wf strict = true) : (if c then i else j).wf strict = true :=
  iteInduction (motive := fun e : Instr => e.wf strict = true) hi hj

/-- A strict decoder fixes the nibble to 0, the other ignores it (R68, R69). -/
theorem nibbleFixed_iff {strict : Bool} {n : Nibble} : nibbleFixed strict n = true ↔ n = 0#4 ∨ strict = false := by
  simp [nibbleFixed]

/-- Where the decoder tests a nibble that a strict decoder fixes to 0, it is enough that the instruction is well-formed
when the test passes: a word that fails it is unrecognized (R68, R69). -/
theorem wf_ite_nibbleFixed {strict : Bool} {w : Word} {op : Nibble} {k : Nat} {i : Instr} (hop : fieldOp w = op)
    (selects : SelectsOn true op k 4 [0x0])
    (hi : nibbleFixed strict (w.extractLsb' k 4) = true → i.wf strict = true) :
    (if w.extractLsb' k 4 = 0x0 || !strict then i else .dw w).wf strict = true := by
  refine wf_ite hi fun free => ?_
  obtain ⟨hn, hstrict⟩ := not_or.1 (mt nibbleFixed_iff.2 free)
  obtain rfl := Bool.eq_true_of_not_eq_false hstrict
  exact unrecognized_of_field selects hop hn

theorem wf_decodeGroup0 {strict : Bool} {w : Word} (hop : fieldOp w = 0x0) :
    (decodeGroup0 strict w).wf strict = true := by
  have selectsNN : SelectsOn strict 0x0 0 8 [0xE0, 0xEE] := by cases strict <;> decide
  exact wf_ite_nibbleFixed (k := 8) hop (by decide) fun fixed => wf_ite (fun _ => fixed) fun hE0 =>
    wf_ite (fun _ => fixed) fun hEE => unrecognized_of_field selectsNN hop ⟨hE0, hEE⟩

theorem wf_decodeGroup8 {strict : Bool} {w : Word} (hop : fieldOp w = 0x8) : (decodeGroup8 w).wf strict = true := by
  have selectsN : SelectsOn strict 0x8 0 4 [0x0, 0x1, 0x2, 0x3, 0x4, 0x5, 0x6, 0x7, 0xE] := by cases strict <;> decide
  exact wf_ite (fun _ => rfl) fun h0 => wf_ite (fun _ => rfl) fun h1 => wf_ite (fun _ => rfl) fun h2 =>
    wf_ite (fun _ => rfl) fun h3 => wf_ite (fun _ => rfl) fun h4 => wf_ite (fun _ => rfl) fun h5 =>
    wf_ite (fun _ => rfl) fun h6 => wf_ite (fun _ => rfl) fun h7 => wf_ite (fun _ => rfl) fun hE =>
    unrecognized_of_field selectsN hop ⟨h0, h1, h2, h3, h4, h5, h6, h7, hE⟩

theorem wf_decodeGroupE {strict : Bool} {w : Word} (hop : fieldOp w = 0xE) : (decodeGroupE w).wf strict = true := by
  have selectsNN : SelectsOn strict 0xE 0 8 [0x9E, 0xA1] := by cases strict <;> decide
  exact wf_ite (fun _ => rfl) fun h9E => wf_ite (fun _ => rfl) fun hA1 =>
    unrecognized_of_field selectsNN hop ⟨h9E, hA1⟩

theorem wf_decodeGroupF {strict : Bool} {w : Word} (hop : fieldOp w = 0xF) : (decodeGroupF w).wf strict = true := by
  have selectsNN : SelectsOn strict 0xF 0 8 [0x07, 0x0A, 0x15, 0x18, 0x1E, 0x33, 0x55, 0x65] := by
    cases strict <;> decide
  exact wf_ite (fun _ => rfl) fun h07 => wf_ite (fun _ => rfl) fun h0A => wf_ite (fun _ => rfl) fun h15 =>
    wf_ite (fun _ => rfl) fun h18 => wf_ite (fun _ => rfl) fun h1E => wf_ite (fun _ => rfl) fun h33 =>
    wf_ite (fun _ => rfl) fun h55 => wf_ite (fun _ => rfl) fun h65 =>
    unrecognized_of_field selectsNN hop ⟨h07, h0A, h15, h18, h1E, h33, h55, h65⟩

/-- Every word decodes to a well-formed instruction (R66, R75). -/
theorem wf_decode (strict : Bool) (w : Word) : (decode strict w).wf strict = true :=
  wf_ite wf_decodeGroup0 fun h0 =>
  wf_ite (fun _ => rfl) fun h1 =>
  wf_ite (fun _ => rfl) fun h2 =>
  wf_ite (fun _ => rfl) fun h3 =>
  wf_ite (fun _ => rfl) fun h4 =>
  wf_ite (fun hop => wf_ite_nibbleFixed (k := 0) hop (by decide) id) fun h5 =>
  wf_ite (fun _ => rfl) fun h6 =>
  wf_ite (fun _ => rfl) fun h7 =>
  wf_ite wf_decodeGroup8 fun h8 =>
  wf_ite (fun hop => wf_ite_nibbleFixed (k := 0) hop (by decide) id) fun h9 =>
  wf_ite (fun _ => rfl) fun hA =>
  wf_ite (fun _ => rfl) fun hB =>
  wf_ite (fun _ => rfl) fun hC =>
  wf_ite (fun _ => rfl) fun hD =>
  wf_ite wf_decodeGroupE fun hE =>
  wf_decodeGroupF (nibble_eq_F _ h0 h1 h2 h3 h4 h5 h6 h7 h8 h9 hA hB hC hD hE)

/-- Settles O4, by the decoder's branches: each answers a well-formed instruction of the word. -/
theorem encodeOfDecode : Obligations.EncodeOfDecode := fun strict w => ⟨wf_decode strict w, encode_decode strict w⟩

/-! ## The row a word decodes to is the one it matches -/

/-- A word matches the row it decodes to (R66). -/
theorem matchesWord_of_rowNumber {strict : Bool} {w : Word} {n : Nat} {row : OpcodeRow}
    (hrow : opcodeTable[n]? = some row) (hnum : (decode strict w).rowNumber = some (n + 1)) :
    row.matchesWord strict w = true := by
  have := matchesItsRow (decode strict w) strict (wf_decode strict w) (n + 1) hnum row hrow
  rwa [encode_decode] at this

/-- An instruction of no row is an unrecognized word. -/
theorem eq_dw_of_rowNumber {i : Instr} (h : i.rowNumber = none) : i = .dw (encode i) := by
  cases i <;> cases h
  rfl

/-- A word decodes to an instruction of a row, or it is unrecognized and matches none (R66, R131). -/
theorem decode_cases (strict : Bool) (w : Word) :
    (∃ n row, opcodeTable[n]? = some row ∧ (decode strict w).rowNumber = some (n + 1) ∧
      row.matchesWord strict w = true) ∨ (decode strict w = .dw w ∧ unrecognized strict w = true) := by
  rcases hk : (decode strict w).rowNumber with _ | k
  · have hdw : decode strict w = .dw w := by rw [eq_dw_of_rowNumber hk, encode_decode]
    have hwf := wf_decode strict w
    rw [hdw] at hwf
    exact .inr ⟨hdw, hwf⟩
  · obtain ⟨n, row, rfl, hrow⟩ := exists_row_of_rowNumber hk
    exact .inl ⟨n, row, hrow, rfl, matchesWord_of_rowNumber hrow hk⟩

/-- Settles O2: a word matches the row it decodes to, no word matches two rows, and an unrecognized one matches none. -/
theorem decodeSelectsTheMatchingRow : Obligations.DecodeSelectsTheMatchingRow := by
  intro strict w n row hrow
  refine ⟨fun hmatch => ?_, fun hnum => OpcodeRow.matchesWord_iff.1 (matchesWord_of_rowNumber hrow hnum)⟩
  replace hmatch : row.matchesWord strict w = true := OpcodeRow.matchesWord_iff.2 hmatch
  rcases decode_cases strict w with ⟨m, row', hrow', hnum, hmatch'⟩ | ⟨-, hno⟩
  · rw [hnum, matching_row_unique hrow' hrow hmatch' hmatch]
  · exact absurd hmatch (unrecognized_iff.1 hno row (List.mem_of_getElem? hrow))

/-! ## The decoder undoes the encoder -/

/-- An unrecognized word decodes to itself (R131). -/
theorem decode_unrecognized {strict : Bool} {w : Word} (h : unrecognized strict w = true) :
    decode strict w = .dw w := by
  rcases decode_cases strict w with ⟨n, row, hrow, -, hmatch⟩ | ⟨hdw, -⟩
  · exact absurd hmatch (unrecognized_iff.1 h row (List.mem_of_getElem? hrow))
  · exact hdw

/-- Settles O3, by cases over the instructions: the fields of a row's word are its operands, and its op and its
sub-opcode lead the decoder to that row. -/
theorem decodeOfEncode : Obligations.DecodeOfEncode := by
  intro strict i hwf
  cases i with
  | dw w => exact decode_unrecognized hwf
  | cls x | ret x => simp [encode, decode, decodeGroup0, nibbleFixed_iff.1 hwf]
  | seReg x y n | sneReg x y n => simp [encode, decode, nibbleFixed_iff.1 hwf]
  | ldReg x y | orReg x y | andReg x y | xorReg x y | addReg x y | subReg x y | shr x y | subnReg x y | shl x y =>
    simp [encode, decode, decodeGroup8]
  | skp x | sknp x => simp [encode, decode, decodeGroupE]
  | ldVxDt x | ldVxK x | ldDtVx x | ldStVx x | addI x | ldB x | ldMemVx x | ldVxMem x =>
    simp [encode, decode, decodeGroupF]
  | jp | call | ldI | jpV0 | seByte | sneByte | ldByte | addByte | rnd | drw => simp [encode, decode]

/-- Settles O1, by running the decoder on the eight words. -/
theorem patternWordsDecode : Obligations.PatternWordsDecode := by
  unfold Obligations.PatternWordsDecode
  decide

end Sys2Proof

/-! # The execution cycle (`40_execution_cycle.md` R79 to R91) -/

namespace Sys2Proof.Machine

/-! ## What `STEP` returns -/

theorem stepReply_running {s : State} (h : s.run = .running) : s.stepReply = .stepOk := by
  simp [State.stepReply, h]

theorem stepReply_awaitingKey {s : State} {x : Reg} (h : s.run = .awaitingKey x) : s.stepReply = .stepWaiting := by
  simp [State.stepReply, h]

theorem stepReply_halted {s : State} {f : FaultRecord} (h : s.run = .halted) (hf : s.fault = some f) :
    s.stepReply = .stepFault f.kind := by
  simp [State.stepReply, h, hf]

/-- Settles O8: the step of a halted core is the identity. -/
theorem haltedStepReturnsTheFault : Obligations.HaltedStepReturnsTheFault := by
  intro s f r run fault
  have hreply : s.stepReply = .stepFault f.kind := stepReply_halted run fault
  exact ⟨step_halted s run, hreply ▸ stepWithByte_halted r s run⟩

/-! ## The poll of a waiting core -/

/-- A pressed key with none pressed below it is the lowest (R127). -/
theorem lowestKey_eq_some {s : State} {k : Key} (down : s.keyDown k = true)
    (lower : ∀ j : Key, j < k → s.keyDown j = false) : lowestKey s.key = some k.val := by
  refine List.find?_range_eq_some.2 ⟨down, List.mem_range.2 k.isLt, fun j hj => ?_⟩
  simpa [State.keyDown] using lower ⟨j, hj.trans k.isLt⟩ hj

/-- With no key pressed there is no lowest (R127). -/
theorem lowestKey_eq_none {s : State} (up : ∀ k : Key, s.keyDown k = false) : lowestKey s.key = none :=
  List.find?_eq_none.2 fun k hk => by simpa [State.keyDown] using up ⟨k, List.mem_range.1 hk⟩

theorem keyWaitPoll_pressed {x : Reg} {s : State} {k : Nat} (h : lowestKey s.key = some k) :
    keyWaitPoll x s = .next ((s.setReg x (BitVec.ofNat 8 k)).setRun .running).advance := by
  simp [keyWaitPoll, h]

theorem keyWaitPoll_unpressed {x : Reg} {s : State} (h : lowestKey s.key = none) : keyWaitPoll x s = .next s := by
  simp [keyWaitPoll, h]

/-- Settles O9: the step of a waiting core is the poll, which reads the key latch alone. -/
theorem waitingStepOnlyPolls : Obligations.WaitingStepOnlyPolls := by
  intro s x run
  constructor
  · intro k down lower
    have hkey : lowestKey s.start.key = some k.val := lowestKey_eq_some down lower
    have hk : k.val < 2 ^ 8 := k.isLt.trans (by decide)
    refine ⟨_, (step_awaiting s x run).trans (keyWaitPoll_pressed hkey), ?_, rfl, rfl, rfl, rfl, ?_, fun _ => rfl, rfl,
      rfl, ⟨rfl, rfl⟩, fun _ => rfl, ⟨rfl, rfl⟩, ⟨rfl, rfl⟩⟩
    · simpa using Nat.mod_eq_of_lt hk
    · intro r hr
      simp [hr]
  · intro up
    have hkey : lowestKey s.start.key = none := lowestKey_eq_none up
    exact (step_awaiting s x run).trans (keyWaitPoll_unpressed hkey)

/-! ## Every instruction answers, and what it does to the keys, the timers and the draws -/

/-- R90, R91: the key latch is kept, FX15 writes DT and FX18 writes ST, each with V[x], and no free draw is made while the
host has supplied a random byte. -/
structure InputFrame (i : Instr) (s t : State) : Prop where
  key : t.key = s.key
  dt : t.dt = s.dt ∨ ∃ x, i = .ldDtVx x ∧ t.dt = s.reg x
  st : t.st = s.st ∨ ∃ x, i = .ldStVx x ∧ t.st = s.reg x
  draws : s.rand ≠ [] → t.draws = s.draws

/-- The instruction's result is a next state with that frame. -/
abbrev Answers (i : Instr) (s : State) (r : Result) : Prop := ∃ t, r = .next t ∧ InputFrame i s t

theorem InputFrame.of_kept {i : Instr} {s t : State} (key : t.key = s.key) (dt : t.dt = s.dt) (st : t.st = s.st)
    (draws : t.draws = s.draws) : InputFrame i s t := ⟨key, .inl dt, .inl st, fun _ => draws⟩

theorem Answers.of_kept {i : Instr} {s t : State} (key : t.key = s.key) (dt : t.dt = s.dt) (st : t.st = s.st)
    (draws : t.draws = s.draws) : Answers i s (.next t) := ⟨t, rfl, .of_kept key dt st draws⟩

theorem Answers.of_raise {i : Instr} {s : State} {k : Fault} {w : Option Word} {info : Nat} :
    Answers i s (raise k w info s) := .of_kept rfl rfl rfl rfl

theorem Answers.of_flagAndResult {i : Instr} {s : State} {x : Reg} {c : Bool} {g : State → Byte} :
    Answers i s (.next (s.flagAndResult x c g).advance) :=
  .of_kept (by simp) (by simp) (by simp) (by simp)

theorem Answers.of_withDataRange {i : Instr} {w : Word} {count : Nat} {s e : State} (h : Answers i s (.next e)) :
    Answers i s (withDataRange w count s e) := by
  unfold withDataRange
  split
  · exact h
  · exact .of_raise

theorem Answers.of_keySkip {i : Instr} {w : Word} {x : Reg} {wanted : Bool} {s : State} :
    Answers i s (keySkip w x wanted s) := by
  unfold keySkip
  split
  · exact .of_raise
  · exact .of_kept rfl rfl rfl rfl

theorem execRet_answers {i : Instr} {n : Nibble} {s : State} : Answers i s (execRet n s) := by
  unfold execRet
  split
  · exact .of_raise
  · exact .of_kept rfl rfl rfl rfl

theorem execCall_answers {i : Instr} {nnn : Addr12} {s : State} : Answers i s (execCall nnn s) := by
  unfold execCall
  split
  · exact .of_raise
  · exact .of_kept rfl rfl rfl rfl

theorem execLdVxK_answers {i : Instr} {x : Reg} {s : State} : Answers i s (execLdVxK x s) := by
  unfold execLdVxK
  split <;> exact .of_kept rfl rfl rfl rfl

/-- A supplied byte is taken without a draw (R116). -/
theorem State.dropRandom_draws {s : State} (h : s.rand ≠ []) : s.dropRandom.draws = s.draws := by
  obtain ⟨b, bs, hrand⟩ := List.exists_cons_of_ne_nil h
  exact (s.dropRandom_supplied b bs hrand).2.2

theorem execRnd_answers {x : Reg} {nn : Byte} {s : State} : Answers (.rnd x nn) s (execRnd x nn s) :=
  ⟨_, rfl, by simp, by simp, by simp, s.dropRandom_draws⟩

/-- Every instruction answers a next state (R84; log 5). -/
theorem exec_answers (i : Instr) (s : State) : Answers i s (exec i s) := by
  cases i with
  | ret n => exact execRet_answers
  | call nnn => exact execCall_answers
  | rnd x nn => exact execRnd_answers
  | ldVxK x => exact execLdVxK_answers
  | ldDtVx x => exact ⟨_, rfl, rfl, .inr ⟨x, rfl, rfl⟩, .inl rfl, fun _ => rfl⟩
  | ldStVx x => exact ⟨_, rfl, rfl, .inl rfl, .inr ⟨x, rfl, rfl⟩, fun _ => rfl⟩
  | skp x | sknp x => exact .of_keySkip
  | drw | ldB | ldMemVx | ldVxMem => exact .of_withDataRange (.of_kept rfl rfl rfl (by simp))
  | addReg | subReg | shr | shl => exact .of_flagAndResult
  | cls | jp | seByte | sneByte | seReg | ldByte | addByte | ldReg | orReg | andReg | xorReg | subnReg | sneReg | ldI |
    jpV0 | ldVxDt | addI | dw => exact .of_kept rfl rfl rfl rfl

theorem exec_inputFrame {i : Instr} {s t : State} (h : exec i s = .next t) : InputFrame i s t := by
  obtain ⟨u, hu, frame⟩ := exec_answers i s
  obtain rfl : u = t := Host.Outcome.next.inj (hu.symm.trans h)
  exact frame

/-! ## Every step answers, and what it does to the keys, the timers and the draws -/

theorem keyWaitPoll_answers (x : Reg) (s : State) : ∃ t, keyWaitPoll x s = .next t := by
  unfold keyWaitPoll
  split <;> exact ⟨_, rfl⟩

/-- Settles O10: in each run state the step is itself a next state, the poll, an instruction or the fetch fault. -/
theorem everyStepAnswersANextState : Obligations.EveryStepAnswersANextState := by
  intro s
  cases run : s.run with
  | halted => exact ⟨s, step_halted s run⟩
  | awaitingKey x => exact step_awaiting s x run ▸ keyWaitPoll_answers x s.start
  | running =>
    cases hf : s.fetchInRange with
    | true =>
      obtain ⟨t, ht, -⟩ := exec_answers (decode s.cfg.strictDecode s.fetchWord) s.start
      exact ⟨t, (step_running s run hf).trans ht⟩
    | false => exact ⟨_, step_fetch_fault s run hf⟩

/-- A step keeps the keys, the timers and the draws, or runs an instruction with its frame. -/
theorem step_inputs {s t : State} (h : step s = .next t) :
    (t.key = s.key ∧ KeepsTimers s t ∧ t.draws = s.draws) ∨
      (s.run = .running ∧ InputFrame (decode s.cfg.strictDecode s.fetchWord) s.start t) := by
  obtain ⟨-, rfl⟩ | ⟨x, -, hpoll⟩ | ⟨run, -, hexec⟩ | ⟨-, -, rfl⟩ := step_cases s t h
  · exact .inl ⟨rfl, ⟨rfl, rfl⟩, rfl⟩
  · obtain ⟨k, -, rfl⟩ | ⟨-, rfl⟩ := keyWaitPoll_cases x _ t hpoll
    · exact .inl ⟨rfl, ⟨rfl, rfl⟩, rfl⟩
    · exact .inl ⟨rfl, ⟨rfl, rfl⟩, rfl⟩
  · exact .inr ⟨run, exec_inputFrame hexec⟩
  · exact .inl ⟨rfl, ⟨rfl, rfl⟩, rfl⟩

/-- Settles O13: only an instruction reaches a timer, and then it is FX15 or FX18. -/
theorem stepTouchesNoKeyAndCountsNoTimer : Obligations.StepTouchesNoKeyAndCountsNoTimer := by
  intro s t h
  obtain ⟨key, ⟨dt, st⟩, -⟩ | ⟨run, frame⟩ := step_inputs h
  · exact ⟨key, .inl dt, .inl st⟩
  · exact ⟨frame.key, frame.dt.imp_right fun ⟨x, hi, hx⟩ => ⟨x, run, hi, hx⟩,
      frame.st.imp_right fun ⟨x, hi, hx⟩ => ⟨x, run, hi, hx⟩⟩

theorem step_draws {s t : State} (h : step s = .next t) (supplied : s.rand ≠ []) : t.draws = s.draws := by
  obtain ⟨-, -, draws⟩ | ⟨-, frame⟩ := step_inputs h
  · exact draws
  · exact frame.draws supplied

/-! ## A core that a step leaves halted holds a record -/

/-- An instruction halts the core only by a fault. -/
theorem exec_halted_record {i : Instr} {s t : State} (h : exec i s = .next t) (run : s.run = .running)
    (halted : t.run = .halted) : ∃ f, t.fault = some f := by
  cases exec_effect h with
  | fault k info _ => exact ⟨_, rfl⟩
  | registers frame _ _ => simp [frame.run, run] at halted
  | store | index | clear | draw | call | ret | wait => simp [run] at halted

theorem step_halted_record {s t : State} (h : step s = .next t) (hs : HaltedIffFault s) (halted : t.run = .halted) :
    ∃ f, t.fault = some f := by
  obtain ⟨run, rfl⟩ | ⟨x, run, hpoll⟩ | ⟨run, -, hexec⟩ | ⟨-, -, rfl⟩ := step_cases s t h
  · exact Option.isSome_iff_exists.1 (hs.1 run)
  · obtain ⟨k, -, rfl⟩ | ⟨-, rfl⟩ := keyWaitPoll_cases x _ t hpoll
    · cases halted
    · simp [run] at halted
  · exact exec_halted_record hexec run halted
  · exact ⟨_, rfl⟩

/-- Settles O11: `STEP(r)` completes, and its reply is read from the run state that the step leaves. -/
theorem stepReplyTellsTheRunState : Obligations.StepReplyTellsTheRunState := by
  intro s r hs
  obtain ⟨u, hu⟩ := everyStepAnswersANextState { s with rand := [r] }
  refine ⟨_, _, stepWithByte_next r s u hu, stepReply_running, fun _ => stepReply_awaitingKey, fun halted => ?_⟩
  obtain ⟨f, hf⟩ := step_halted_record hu hs halted
  exact ⟨f, hf, stepReply_halted halted hf⟩

/-! ## Only CXNN reads the random byte

A step that runs no CXNN does the same whatever bytes the host has supplied, and leaves them as they are: `step` commutes
with `State.withRand`. -/

/-- The state with other random bytes supplied. -/
def State.withRand (s : State) (bytes : List Byte) : State := { s with rand := bytes }

theorem flagAndResult_withRand {s : State} {bytes : List Byte} {x : Reg} {c : Bool} {g : State → Byte}
    (hg : ∀ u : State, g (u.withRand bytes) = g u) :
    (s.withRand bytes).flagAndResult x c g = (s.flagAndResult x c g).withRand bytes := by
  have order : (s.withRand bytes).cfg.flagOrder = s.cfg.flagOrder := rfl
  cases h : s.cfg.flagOrder with
  | asWritten =>
    simp only [State.flagAndResult, order, h]
    exact congrArg (State.setReg _ x) (hg (s.setFlag c))
  | flagLast =>
    simp only [State.flagAndResult, order, h, hg]
    rfl

theorem withDataRange_withRand {w : Word} {count : Nat} {s e t : State} (bytes : List Byte)
    (h : withDataRange w count s e = .next t) :
    withDataRange w count (s.withRand bytes) (e.withRand bytes) = .next (t.withRand bytes) := by
  obtain ⟨hr, rfl⟩ | ⟨hr, rfl⟩ := withDataRange_cases _ _ _ _ _ h
  · exact if_pos hr
  · exact if_neg (Bool.not_eq_true _ ▸ hr)

theorem keySkip_withRand {w : Word} {x : Reg} {wanted : Bool} {s t : State} (bytes : List Byte)
    (h : keySkip w x wanted s = .next t) : keySkip w x wanted (s.withRand bytes) = .next (t.withRand bytes) := by
  have hkey : keyIndex (s.withRand bytes).cfg.keyIndexMode ((s.withRand bytes).reg x) =
      keyIndex s.cfg.keyIndexMode (s.reg x) := rfl
  obtain ⟨k, hk, rfl⟩ | ⟨hk, rfl⟩ := keySkip_cases _ _ _ _ _ h
  · simp only [keySkip, hkey, hk]
    rfl
  · simp only [keySkip, hkey, hk]
    rfl

theorem execRet_withRand {n : Nibble} {s t : State} (bytes : List Byte) (h : execRet n s = .next t) :
    execRet n (s.withRand bytes) = .next (t.withRand bytes) := by
  have htop : (s.withRand bytes).top = s.top := rfl
  cases hs : s.top <;>
  · simp only [execRet, htop, hs] at h ⊢
    cases h
    rfl

theorem execCall_withRand {nnn : Addr12} {s t : State} (bytes : List Byte) (h : execCall nnn s = .next t) :
    execCall nnn (s.withRand bytes) = .next (t.withRand bytes) := by
  unfold execCall at h
  split at h
  next hfull =>
    cases h
    exact if_pos hfull
  next hroom =>
    cases h
    exact if_neg hroom

theorem execLdVxK_withRand {x : Reg} {s t : State} (bytes : List Byte) (h : execLdVxK x s = .next t) :
    execLdVxK x (s.withRand bytes) = .next (t.withRand bytes) := by
  have hkey : (s.withRand bytes).key = s.key := rfl
  cases hs : lowestKey s.key <;>
  · simp only [execLdVxK, hkey, hs] at h ⊢
    cases h
    rfl

theorem keyWaitPoll_withRand {x : Reg} {s t : State} (bytes : List Byte) (h : keyWaitPoll x s = .next t) :
    keyWaitPoll x (s.withRand bytes) = .next (t.withRand bytes) := by
  obtain ⟨k, hk, rfl⟩ | ⟨hk, rfl⟩ := keyWaitPoll_cases x s t h
  · exact keyWaitPoll_pressed hk
  · exact keyWaitPoll_unpressed hk

/-- Every instruction but CXNN does the same with other random bytes supplied (R90). -/
theorem exec_withRand {i : Instr} {s t : State} (bytes : List Byte) (noRnd : ∀ x nn, i ≠ .rnd x nn)
    (h : exec i s = .next t) : exec i (s.withRand bytes) = .next (t.withRand bytes) := by
  cases i with
  | rnd x nn => exact absurd rfl (noRnd x nn)
  | ret n => exact execRet_withRand bytes h
  | call nnn => exact execCall_withRand bytes h
  | ldVxK x => exact execLdVxK_withRand bytes h
  | skp x | sknp x => exact keySkip_withRand bytes h
  | drw | ldB | ldMemVx | ldVxMem => exact withDataRange_withRand bytes h
  | addReg | subReg | shr | shl =>
    cases h
    exact congrArg (fun u : State => Host.Outcome.next u.advance) (flagAndResult_withRand fun _ => rfl)
  | cls | jp | seByte | sneByte | seReg | ldByte | addByte | ldReg | orReg | andReg | xorReg | subnReg | sneReg | ldI |
    jpV0 | ldVxDt | ldDtVx | ldStVx | addI | dw =>
    cases h
    rfl

/-- The step runs no CXNN. -/
abbrev RunsNoRnd (s : State) : Prop :=
  ∀ x nn, ¬ (s.run = .running ∧ s.fetchInRange = true ∧ decode s.cfg.strictDecode s.fetchWord = .rnd x nn)

/-- A step that runs no CXNN does the same with other random bytes supplied (R90). -/
theorem step_withRand {s t : State} (bytes : List Byte) (noRnd : RunsNoRnd s) (h : step s = .next t) :
    step (s.withRand bytes) = .next (t.withRand bytes) := by
  obtain ⟨run, rfl⟩ | ⟨x, run, hpoll⟩ | ⟨run, hf, hexec⟩ | ⟨run, hf, rfl⟩ := step_cases s t h
  · exact step_halted _ run
  · exact (step_awaiting (s.withRand bytes) x run).trans (keyWaitPoll_withRand bytes hpoll)
  · have hexec' := exec_withRand bytes (fun x nn hi => noRnd x nn ⟨run, hf, hi⟩) hexec
    exact (step_running (s.withRand bytes) run hf).trans hexec'
  · exact step_fetch_fault _ run hf

/-- `STEP(r)` of a core that runs no CXNN is its step without `r` (R90). -/
theorem stepWithByte_of_runsNoRnd {s t : State} (r : Byte) (noRnd : RunsNoRnd s) (h : step s = .next t) :
    stepWithByte r s = .next (t.withRand s.rand, t.stepReply) :=
  stepWithByte_next r s (t.withRand [r]) (step_withRand [r] noRnd h)

/-- Settles O12: without a CXNN `STEP(r)` is the same step for every `r`, and a supplied byte is taken without a draw. -/
theorem randomByteReadOnlyByRnd : Obligations.RandomByteReadOnlyByRnd := by
  intro s r r'
  constructor
  · intro noRnd
    obtain ⟨t, ht⟩ := everyStepAnswersANextState s
    exact (stepWithByte_of_runsNoRnd r noRnd ht).trans (stepWithByte_of_runsNoRnd r' noRnd ht).symm
  · intro t reply h
    obtain ⟨u, hu, rfl, -⟩ := stepWithByte_cases h
    have draws : u.draws = s.draws := step_draws (s := s.withRand [r]) hu (List.cons_ne_nil r [])
    exact ⟨rfl, draws⟩

end Sys2Proof.Machine

/-! # The display (`41_display.md` R93 to R96) -/

namespace Sys2Proof.Machine

/-- Settles O32: 00E0 writes the dark framebuffer and `pc`, and nothing else. -/
theorem clearResult : Obligations.ClearResult := fun _ _ =>
  ⟨_, rfl, Framebuffer.pixel_dark, rfl, fun _ => rfl, fun _ => rfl, rfl, rfl, ⟨rfl, rfl⟩, ⟨rfl, rfl, rfl⟩, ⟨rfl, rfl⟩,
    rfl, rfl⟩

/-! ## The target of a sprite bit -/

theorem spriteTarget_linearWrap_iff {sx sy : Nat} {p : Pixel} :
    spriteTarget .linearWrap sx sy = some p ↔ p.val = (sy * 64 + sx) % 2048 := by
  rw [spriteTarget, Option.some_inj, Fin.ext_iff, eq_comm]

theorem spriteTarget_torusWrap_iff {sx sy : Nat} {p : Pixel} :
    spriteTarget .torusWrap sx sy = some p ↔ p.val = sy % 32 * 64 + sx % 64 := by
  rw [spriteTarget, Option.some_inj, Fin.ext_iff, eq_comm]

theorem spriteTarget_clip_outside {sx sy : Nat} (h : ¬ (sx < 64 ∧ sy < 32)) : spriteTarget .clip sx sy = none :=
  dif_neg h

theorem spriteTarget_clip_iff {sx sy : Nat} {p : Pixel} :
    spriteTarget .clip sx sy = some p ↔ (sx < 64 ∧ sy < 32) ∧ p.val = sy * 64 + sx := by
  by_cases h : sx < 64 ∧ sy < 32
  · rw [spriteTarget, dif_pos h, Option.some_inj, Fin.ext_iff, eq_comm, and_iff_right h]
  · simp [spriteTarget_clip_outside h, h]

/-- Settles O34: inside the grid neither wrap changes the pixel's number. -/
theorem spriteTargetByEdge : Obligations.SpriteTargetByEdge := by
  intro sx sy _ _
  refine ⟨⟨_, rfl, rfl⟩, ⟨_, rfl, rfl⟩, fun inside => ?_, spriteTarget_clip_outside⟩
  obtain ⟨p, hp⟩ : ∃ p : Pixel, p.val = sy * 64 + sx := ⟨⟨_, by omega⟩, rfl⟩
  refine ⟨p, spriteTarget_clip_iff.2 ⟨inside, hp⟩, hp, ?_, ?_⟩
  · rw [spriteTarget_linearWrap_iff]
    omega
  · rw [spriteTarget_torusWrap_iff]
    omega

/-- Settles O35: a sprite is at most 15 rows of 8 columns, too small for a wrap to bring two of its bits together. -/
theorem spriteBitsHaveDistinctTargets : Obligations.SpriteBitsHaveDistinctTargets := by
  intro e ox oy row col row' col' p hox hoy hrow hcol hrow' hcol' h h'
  cases e with
  | linearWrap =>
    rw [spriteTarget_linearWrap_iff] at h h'
    omega
  | clip =>
    rw [spriteTarget_clip_iff] at h h'
    omega
  | torusWrap =>
    rw [spriteTarget_torusWrap_iff] at h h'
    omega

/-! ## What a draw flips

`Flips drawn c d` says what drawing the pixels `drawn` once each makes of the canvas `c`. Two draws of disjoint pixels
make one draw of both, so a fold of pairwise disjoint draws is one draw of them all: a row as the fold of its bits, a
sprite as the fold of its rows. -/

/-- `d` is `c` with exactly the pixels of `drawn` flipped, and `hit` notes the lit ones among them (R94). -/
structure Flips (drawn : Pixel → Prop) (c d : Canvas) : Prop where
  flipped : ∀ p, drawn p → Framebuffer.pixel d.fb p = !Framebuffer.pixel c.fb p
  kept : ∀ p, ¬ drawn p → Framebuffer.pixel d.fb p = Framebuffer.pixel c.fb p
  hit : d.hit = true ↔ c.hit = true ∨ ∃ p, drawn p ∧ Framebuffer.pixel c.fb p = true

theorem Flips.refl (c : Canvas) {drawn : Pixel → Prop} (empty : ∀ p, ¬ drawn p) : Flips drawn c c where
  flipped p hp := absurd hp (empty p)
  kept _ _ := rfl
  hit := by simp [empty]

theorem Flips.congr {drawn drawn' : Pixel → Prop} {c d : Canvas} (h : Flips drawn c d)
    (same : ∀ p, drawn p ↔ drawn' p) : Flips drawn' c d :=
  (funext fun p => propext (same p) : drawn = drawn') ▸ h

/-- Drawing disjoint pixels one after the other draws both. -/
theorem Flips.trans {first second : Pixel → Prop} {c d e : Canvas} (h : Flips first c d) (h' : Flips second d e)
    (disjoint : ∀ p, first p → ¬ second p) : Flips (fun p => first p ∨ second p) c e where
  flipped p hp := by
    obtain hp | hp := hp
    · rw [h'.kept p (disjoint p hp), h.flipped p hp]
    · rw [h'.flipped p hp, h.kept p fun hq => disjoint p hq hp]
  kept p hp := by
    obtain ⟨hp, hp'⟩ := not_or.1 hp
    rw [h'.kept p hp', h.kept p hp]
  hit := by
    have unchanged : ∀ p, second p ∧ Framebuffer.pixel d.fb p = true ↔ second p ∧ Framebuffer.pixel c.fb p = true :=
      fun p => and_congr_right fun hp => by rw [h.kept p fun hq => disjoint p hq hp]
    simp only [h'.hit, h.hit, unchanged, or_and_right, exists_or, or_assoc]

/-- A fold of pairwise disjoint draws draws the pixels of all of them. -/
theorem Flips.foldl_range {drawn : Nat → Pixel → Prop} {draw : Canvas → Nat → Canvas} (c : Canvas) (n : Nat)
    (each : ∀ i < n, ∀ d, Flips (drawn i) d (draw d i))
    (disjoint : ∀ i < n, ∀ j < n, ∀ p, drawn i p → drawn j p → i = j) :
    Flips (fun p => ∃ i < n, drawn i p) c ((List.range n).foldl draw c) := by
  induction n with
  | zero => exact .refl c (by simp)
  | succ n ih =>
    have before := ih (fun i hi => each i (by omega)) fun i hi j hj => disjoint i (by omega) j (by omega)
    have last := each n n.lt_succ_self ((List.range n).foldl draw c)
    rw [List.range_succ, List.foldl_append]
    refine (before.trans last ?_).congr fun p => Nat.exists_lt_succ_right.symm
    rintro p ⟨i, hi, hp⟩ hp'
    have := disjoint i (by omega) n (by omega) p hp hp'
    omega

theorem drawBit_flips (target : Option Pixel) (c : Canvas) : Flips (fun p => target = some p) c (drawBit target c) := by
  cases target with
  | none => exact .refl c (by simp)
  | some q =>
    constructor
    · rintro p ⟨⟩
      simp [drawBit_pixel]
    · intro p hp
      have hne : p ≠ q := fun h => hp (congrArg some h.symm)
      simp [drawBit_pixel, hne]
    · simp [drawBit_hit]

/-- Column `col` of the sprite row `b` has a bit 1, and it falls on pixel `p` (R94, R95). -/
abbrev RowBitDraws (e : SpriteEdge) (ox sy : Nat) (b : Byte) (col : Nat) (p : Pixel) : Prop :=
  b.getLsbD (7 - col) = true ∧ spriteTarget e (ox + col) sy = some p

theorem drawRow_flips (e : SpriteEdge) {ox oy row : Nat} (b : Byte) (c : Canvas) (hox : ox < 64) (hoy : oy < 32)
    (hrow : row < 15) :
    Flips (fun p => ∃ col < 8, RowBitDraws e ox (oy + row) b col p) c (drawRow e ox (oy + row) b c) := by
  refine .foldl_range c 8 (fun col _ d => ?_) ?_
  · split
    next bit => exact (drawBit_flips _ d).congr fun p => (and_iff_right bit).symm
    next noBit => exact .refl d fun p h => noBit h.1
  · rintro col hcol col' hcol' p ⟨-, h⟩ ⟨-, h'⟩
    exact (spriteBitsHaveDistinctTargets e ox oy row col' row col p hox hoy hrow hcol' hrow hcol h' h).2

theorem drawSprite_flips (e : SpriteEdge) (m : Memory) (base : Nat) {ox oy n : Nat} (c : Canvas) (hox : ox < 64)
    (hoy : oy < 32) (hn : n < 16) :
    Flips (fun p => ∃ row < n, ∃ col < 8, RowBitDraws e ox (oy + row) (m.read (base + row)) col p) c
      (drawSprite e m base ox oy n c) := by
  refine .foldl_range c n (fun row hrow d => drawRow_flips e _ d hox hoy (by omega)) ?_
  rintro row hrow row' hrow' p ⟨col, hcol, -, h⟩ ⟨col', hcol', -, h'⟩
  exact (spriteBitsHaveDistinctTargets e ox oy row' col' row col p hox hoy (by omega) hcol' (by omega) hcol h' h).1

/-- DXYN flips the pixels its sprite's bits fall on (R94). -/
theorem drawn_flips (s : State) (x y : Reg) (n : Nibble) :
    Flips (DrawsPixel s x y n) ⟨s.fb, false⟩ (s.drawn x y n) :=
  (drawSprite_flips s.cfg.spriteEdge s.mem s.idx.toNat ⟨s.fb, false⟩ (Nat.mod_lt _ (by decide))
    (Nat.mod_lt _ (by decide)) n.isLt).congr fun p => by
      simp only [DrawsPixel, RowBitDraws, State.byteAt, exists_and_left]

theorem drawn_hit_iff (s : State) (x y : Reg) (n : Nibble) :
    (s.drawn x y n).hit = true ↔ ∃ p, DrawsPixel s x y n p ∧ Framebuffer.pixel s.fb p = true := by
  simp [(drawn_flips s x y n).hit]

/-! ## DXYN -/

/-- The state DXYN leaves when its rows are in memory: the canvas after the draw, `hit` in VF, `pc` advanced (R94). -/
def State.afterDraw (s : State) (x y : Reg) (n : Nibble) : State :=
  ((s.setFb (s.drawn x y n).fb).setFlag (s.drawn x y n).hit).advance

theorem exec_drw_inside {x y : Reg} {n : Nibble} {s : State} (h : n.toNat = 0 ∨ s.idx.toNat + n.toNat ≤ 4096) :
    exec (.drw x y n) s = .next (s.afterDraw x y n) := withDataRange_inside h

theorem afterDraw_reg_flag (s : State) (x y : Reg) (n : Nibble) :
    (s.afterDraw x y n).reg Reg.F = flagByte (s.drawn x y n).hit := by simp [State.afterDraw, State.setFlag_reg]

theorem afterDraw_reg_of_ne (s : State) (x y : Reg) (n : Nibble) {r : Reg} (h : r ≠ Reg.F) :
    (s.afterDraw x y n).reg r = s.reg r := by simp [State.afterDraw, State.setFlag_reg, h]

theorem flagByte_eq_one_iff {c : Bool} : flagByte c = 1 ↔ c = true := by cases c <;> decide

/-- Settles O33: the canvas after the draw, and VF as its `hit`. -/
theorem drawFlipsTheSpritesPixels : Obligations.DrawFlipsTheSpritesPixels := by
  intro x y n s inRange
  have flips := drawn_flips s x y n
  refine ⟨s.afterDraw x y n, exec_drw_inside inRange, fun p => ⟨flips.flipped p, flips.kept p⟩, fun collision => ?_,
    fun noCollision => ?_, rfl, fun r => afterDraw_reg_of_ne s x y n, fun _ => rfl, rfl, rfl, ⟨rfl, rfl⟩,
    ⟨rfl, rfl, rfl⟩, ⟨rfl, rfl⟩, rfl, rfl⟩
  · rw [afterDraw_reg_flag, (drawn_hit_iff s x y n).2 collision]
    rfl
  · rw [afterDraw_reg_flag, Bool.eq_false_iff.2 fun hit => noCollision ((drawn_hit_iff s x y n).1 hit)]
    rfl

/-- The pixels of a draw depend on no more than memory, I, the parameters and the origin. -/
theorem drawsPixel_congr {s v : State} {x y x' y' : Reg} {n : Nibble} (mem : KeepsMemory s v) (idx : KeepsIndex s v)
    (cfg : v.cfg = s.cfg) (hx : (v.reg x').toNat % 64 = (s.reg x).toNat % 64)
    (hy : (v.reg y').toNat % 32 = (s.reg y).toNat % 32) : DrawsPixel v x' y' n = DrawsPixel s x y n := by
  funext p
  simp only [DrawsPixel, mem _, idx, cfg, hx, hy]

/-- Settles O36: both draws flip the same pixels, so the second finds each of them as the first has flipped it. -/
theorem drawingTwiceRestores : Obligations.DrawingTwiceRestores := by
  intro x y x' y' n s t v u inRange hfirst display mem idx cfg hx hy hsecond
  cases (exec_drw_inside inRange).symm.trans hfirst
  cases (exec_drw_inside (s := v) (idx ▸ inRange)).symm.trans hsecond
  have first := drawn_flips s x y n
  have second := drawn_flips v x' y' n
  have hit := drawn_hit_iff v x' y' n
  rw [drawsPixel_congr mem idx cfg hx hy] at second hit
  have flippedOnce : ∀ p, DrawsPixel s x y n p → Framebuffer.pixel v.fb p = !Framebuffer.pixel s.fb p :=
    fun p hp => (display p).trans (first.flipped p hp)
  constructor
  · intro p
    by_cases hp : DrawsPixel s x y n p
    · calc Framebuffer.pixel (v.afterDraw x' y' n).fb p
        _ = !Framebuffer.pixel v.fb p := second.flipped p hp
        _ = Framebuffer.pixel s.fb p := by rw [flippedOnce p hp, Bool.not_not]
    · exact (second.kept p hp).trans ((display p).trans (first.kept p hp))
  · rw [afterDraw_reg_flag, flagByte_eq_one_iff, hit]
    refine exists_congr fun p => and_congr_right fun hp => ?_
    rw [flippedOnce p hp, Bool.not_eq_true']

end Sys2Proof.Machine

/-! # Control flow (`42_control_flow.md` R97 to R104) -/

namespace Sys2Proof.Machine

/-! ## The jumps -/

theorem addrOf_toNat (nnn : Addr12) : (addrOf nnn).toNat = nnn.toNat :=
  BitVec.toNat_setWidth_of_le (by decide)

/-- 12 bits and a byte have a sum of 16 bits, so BNNN's target does not wrap (R104). -/
theorem addrOf_add_zext16_toNat (nnn : Addr12) (b : Byte) :
    (addrOf nnn + zext16 b).toNat = nnn.toNat + b.toNat := by
  have hb : (zext16 b).toNat = b.toNat := BitVec.toNat_setWidth_of_le (by decide)
  have hnnn := nnn.isLt
  have hbyte := b.isLt
  rw [BitVec.toNat_add, addrOf_toNat, hb]
  omega

theorem setPc_keepsAllButPc (s : State) (a : Word) : KeepsAllButPc s (s.setPc a) :=
  ⟨⟨⟨fun _ => rfl, rfl, rfl, ⟨rfl, rfl⟩, fun _ => rfl, ⟨rfl, rfl, rfl⟩, ⟨rfl, rfl⟩⟩, ⟨rfl, rfl⟩⟩, fun _ => rfl⟩

/-- Settles O37: a jump sets `pc` alone, to a target below 2 ^ 16. -/
theorem jumpResults : Obligations.JumpResults := fun nnn s =>
  ⟨⟨_, rfl, addrOf_toNat nnn, setPc_keepsAllButPc s _⟩,
    ⟨_, rfl, addrOf_add_zext16_toNat nnn (s.reg Reg.V0), setPc_keepsAllButPc s _⟩⟩

/-! ## Call and return -/

/-- Everything but the call stack and `pc` is as before. -/
abbrev KeepsAllButStackPc (s t : State) : Prop :=
  KeepsRegs s t ∧ KeepsMemory s t ∧ KeepsIndex s t ∧ KeepsTimers s t ∧ KeepsDisplay s t ∧ KeepsControl s t ∧
    KeepsInputs s t ∧ KeepsRandom s t

theorem setStack_setPc_keepsAllButStackPc (s : State) (k : List Word) (a : Word) :
    KeepsAllButStackPc s ((s.setStack k).setPc a) :=
  ⟨fun _ => rfl, fun _ => rfl, rfl, ⟨rfl, rfl⟩, fun _ => rfl, ⟨rfl, rfl, rfl⟩, ⟨rfl, rfl⟩, ⟨rfl, rfl⟩⟩

/-- The capacity test of R99 in numbers. -/
theorem stackFull_iff (s : State) : s.stackFull = true ↔ s.cfg.stackDepth ≤ s.stack.length := decide_eq_true_iff

theorem exec_call_room {nnn : Addr12} {s : State} (h : s.stack.length < s.cfg.stackDepth) :
    exec (.call nnn) s = .next ((s.push (s.pc + 2)).setPc (addrOf nnn)) :=
  if_neg ((stackFull_iff s).not.2 (Nat.not_le.2 h))

theorem exec_call_full {nnn : Addr12} {s : State} (h : s.cfg.stackDepth ≤ s.stack.length) :
    exec (.call nnn) s = .next (s.halt .stackOverflow (some (encode (.call nnn))) s.cfg.stackDepth) :=
  if_pos ((stackFull_iff s).2 h)

theorem exec_ret_top {n : Nibble} {s : State} {rest : List Word} {a : Word} (h : s.stack = rest ++ [a]) :
    exec (.ret n) s = .next ((s.setStack rest).setPc a) := by
  have htop : s.top = some a := by rw [State.top, h, List.getLast?_concat]
  have hpop : s.pop = s.setStack rest := by rw [State.pop, h, List.dropLast_concat]
  change execRet n s = _
  simp only [execRet, htop, hpop]

theorem exec_ret_empty {n : Nibble} {s : State} (h : s.stack = []) :
    exec (.ret n) s = .next (s.halt .stackUnderflow (some (encode (.ret n))) 0) := by
  have htop : s.top = none := by rw [State.top, h, List.getLast?_nil]
  change execRet n s = _
  simp only [execRet, htop, raise]

/-- Settles O38: a call with room writes the stack and `pc`, and a call without room only halts. -/
theorem callResult : Obligations.CallResult := fun nnn s =>
  ⟨fun room => ⟨_, exec_call_room room, addrOf_toNat nnn, rfl, setStack_setPc_keepsAllButStackPc s _ _⟩,
    fun full => exec_call_full full.ge⟩

/-- Settles O39: a return with an entry writes the stack and `pc`, and a return without one only halts. -/
theorem returnResult : Obligations.ReturnResult := fun _ s =>
  ⟨fun _ _ entry => ⟨_, exec_ret_top entry, rfl, rfl, setStack_setPc_keepsAllButStackPc s _ _⟩, exec_ret_empty⟩

/-- Settles O40: the entry the return finds on top is the one the call pushed. -/
theorem returnComesBackAfterCall : Obligations.ReturnComesBackAfterCall := by
  intro nnn n s t u room hcall hstack
  cases (exec_call_room room).symm.trans hcall
  have entry : u.stack = s.stack ++ [s.pc + 2] := hstack
  exact ⟨_, exec_ret_top entry, rfl, rfl⟩

/-! ## The register skips -/

/-- An instruction that is a skip on a test is a skip on what the test decides. -/
theorem SkipResult.of_skipIf {i : Instr} {test : State → Bool} {cond : State → Prop}
    (hexec : ∀ s, exec i s = .next (s.skipIf (test s))) (htest : ∀ s, test s = true ↔ cond s) : SkipResult i cond :=
  fun s => ⟨_, hexec s, fun hc => if_pos ((htest s).2 hc), fun hc => if_neg ((htest s).not.2 hc),
    setPc_keepsAllButPc s _⟩

/-- Settles O41: the four are skips, each on the test that decides its condition. -/
theorem skipResults : Obligations.SkipResults := fun _ _ _ _ =>
  ⟨.of_skipIf (fun _ => rfl) fun _ => beq_iff_eq, .of_skipIf (fun _ => rfl) fun _ => bne_iff_ne,
    .of_skipIf (fun _ => rfl) fun _ => beq_iff_eq, .of_skipIf (fun _ => rfl) fun _ => bne_iff_ne⟩

end Sys2Proof.Machine

/-! # Registers and arithmetic (`43_alu.md` R105 to R117) -/

namespace Sys2Proof.Machine

/-! ## The instructions that write one register -/

theorem setReg_advance_keepsAllButRegsPc (s : State) (x : Reg) (b : Byte) :
    KeepsAllButRegsPc s (s.setReg x b).advance :=
  ⟨⟨fun _ => rfl, rfl, rfl, ⟨rfl, rfl⟩, fun _ => rfl, ⟨rfl, rfl, rfl⟩, ⟨rfl, rfl⟩⟩, ⟨rfl, rfl⟩⟩

/-- An instruction that writes a value to V[x] and advances has that value as its result. -/
theorem RegisterResult.of_setReg {i : Instr} {x : Reg} {written value : State → Byte}
    (hexec : ∀ s, exec i s = .next (s.setReg x (written s)).advance) (hvalue : ∀ s, written s = value s) :
    RegisterResult i x value :=
  fun s => ⟨_, hexec s, (s.setReg_reg_same x _).trans (hvalue s), rfl, fun r => s.setReg_reg_other x _ r,
    setReg_advance_keepsAllButRegsPc s x _⟩

/-- Settles O23: 7XNN's sum is the sum of bytes, which is taken modulo 256. -/
theorem immediateResults : Obligations.ImmediateResults := by
  intro x nn
  constructor
  · exact .of_setReg (fun _ => rfl) fun _ => rfl
  · refine .of_setReg (fun _ => rfl) fun s => BitVec.eq_of_toNat_eq ?_
    rw [BitVec.toNat_add, BitVec.toNat_ofNat, Nat.mod_mod]

/-- Settles O24: each of the four writes its value to V[x] alone. -/
theorem copyAndLogicResults : Obligations.CopyAndLogicResults := fun _ _ =>
  ⟨.of_setReg (fun _ => rfl) fun _ => rfl, .of_setReg (fun _ => rfl) fun _ => rfl,
    .of_setReg (fun _ => rfl) fun _ => rfl, .of_setReg (fun _ => rfl) fun _ => rfl⟩

/-! ## The flag bytes and the byte results in numbers -/

theorem flagByte_decide (p : Prop) [Decidable p] : flagByte (decide p) = if p then 1 else 0 := by simp [flagByte]

theorem flagByte_toNat (c : Bool) : (flagByte c).toNat = c.toNat := by cases c <;> rfl

/-- 8XY4's flag is 1 exactly when the sum passes 255 (R111). -/
theorem flagByte_carryOfSum (a b : Byte) :
    flagByte (carryOfSum a b) = if 255 < a.toNat + b.toNat then 1 else 0 := flagByte_decide _

/-- The flag of 8XY5 and 8XY7 is 1 exactly when the first is strictly greater (R112, R114). -/
theorem flagByte_greater (a b : Byte) : flagByte (greater a b) = if b.toNat < a.toNat then 1 else 0 :=
  flagByte_decide _

/-- Equal operands give the flag 0 (R112). -/
theorem flagByte_greater_self (a : Byte) : flagByte (greater a a) = 0 := by
  rw [flagByte_greater, if_neg (Nat.lt_irrefl _)]

/-- 8XY6's flag is the remainder of the halving (R113). -/
theorem flagByte_shiftedOutRight_toNat (a : Byte) : (flagByte (shiftedOutRight a)).toNat = a.toNat % 2 := by
  rw [flagByte_toNat, shiftedOutRight, BitVec.getLsbD, Nat.toNat_testBit, pow_zero, Nat.div_one]

/-- 8XYE's flag is the carry of the doubling (R115). -/
theorem flagByte_shiftedOutLeft_toNat (a : Byte) : (flagByte (shiftedOutLeft a)).toNat = a.toNat / 128 := by
  have ha := a.isLt
  rw [flagByte_toNat, shiftedOutLeft, BitVec.getLsbD, Nat.toNat_testBit]
  omega

/-- A difference of bytes wraps modulo 256 (R112, R114). -/
theorem byte_sub_toNat (a b : Byte) : (a - b).toNat = (a.toNat + 256 - b.toNat) % 256 := by
  have hb := b.isLt
  rw [BitVec.toNat_sub]
  omega

theorem byte_shiftRight_one_toNat (a : Byte) : (a >>> 1).toNat = a.toNat / 2 := by
  rw [BitVec.toNat_ushiftRight, Nat.shiftRight_eq_div_pow, pow_one]

theorem byte_shiftLeft_one_toNat (a : Byte) : (a <<< 1).toNat = a.toNat * 2 % 256 := by
  rw [BitVec.toNat_shiftLeft, Nat.shiftLeft_eq, pow_one]

/-- A flag's only bit is bit 0, so 8FY6, which as written shifts the flag itself, leaves 0 (R113). -/
theorem flagByte_shiftRight_one (c : Bool) : flagByte c >>> 1 = 0 := by cases c <;> rfl

/-- Twice a flag does not wrap (R115). -/
theorem flagByte_shiftLeft_one_toNat (c : Bool) : (flagByte c <<< 1).toNat = (flagByte c).toNat * 2 := by
  cases c <;> rfl

/-! ## The operation that writes VF and a result, in each order (D10) -/

theorem setFlag_reg_flag (s : State) (c : Bool) : (s.setFlag c).reg Reg.F = flagByte c :=
  s.setReg_reg_same Reg.F _

theorem setFlag_reg_of_ne (s : State) (c : Bool) {r : Reg} (h : r ≠ Reg.F) : (s.setFlag c).reg r = s.reg r :=
  s.setReg_reg_other Reg.F _ r h

section
variable {s : State} {x : Reg} {c : Bool} {g : State → Byte}

/-- As written, V[x] is computed after the flag's write, and stands in VF too when x = F. -/
theorem flagAndResult_reg_asWritten (order : s.cfg.flagOrder = .asWritten) :
    (s.flagAndResult x c g).reg x = g (s.setFlag c) := by
  rw [State.flagAndResult_reg, order]
  exact if_pos rfl

/-- Flag last, V[x] is computed from the registers as they were. -/
theorem flagAndResult_reg_flagLast (order : s.cfg.flagOrder = .flagLast) (hx : x ≠ Reg.F) :
    (s.flagAndResult x c g).reg x = g s := by
  rw [State.flagAndResult_reg, order]
  exact (if_neg hx).trans (if_pos rfl)

/-- Where the result does not read what the flag's write changes, the order does not matter to V[x]. -/
theorem flagAndResult_reg_of_ne (hx : x ≠ Reg.F) (hg : g (s.setFlag c) = g s) :
    (s.flagAndResult x c g).reg x = g s := by
  cases order : s.cfg.flagOrder with
  | asWritten => rw [flagAndResult_reg_asWritten order, hg]
  | flagLast => exact flagAndResult_reg_flagLast order hx

/-- Flag last, VF is the flag even when x = F. -/
theorem flagAndResult_flag_flagLast (order : s.cfg.flagOrder = .flagLast) :
    (s.flagAndResult x c g).reg Reg.F = flagByte c := by
  rw [State.flagAndResult_reg, order]
  exact if_pos rfl

/-- VF is the flag when the result is in another register. -/
theorem flagAndResult_flag_of_ne (hx : x ≠ Reg.F) : (s.flagAndResult x c g).reg Reg.F = flagByte c := by
  cases order : s.cfg.flagOrder with
  | asWritten =>
    rw [State.flagAndResult_reg, order]
    exact (if_neg hx.symm).trans (if_pos rfl)
  | flagLast => exact flagAndResult_flag_flagLast order

end

/-! ## The instructions that write VF and a result -/

/-- The instruction completes from `s` with `post`: `pc` advances, and nothing else changes but V[x] and VF. -/
abbrev FlagResult (i : Instr) (x : Reg) (s : State) (post : State → Prop) : Prop :=
  ∃ t, exec i s = .next t ∧ t.pc = s.pc + 2 ∧ KeepsRegsButFlagAnd x s t ∧ KeepsAllButRegsPc s t ∧ post t

theorem flagAndResult_advance_keepsAllButRegsPc (s : State) (x : Reg) (c : Bool) (g : State → Byte) :
    KeepsAllButRegsPc s (s.flagAndResult x c g).advance := by
  unfold State.flagAndResult
  split
  · exact setReg_advance_keepsAllButRegsPc (s.setFlag c) x _
  · exact setReg_advance_keepsAllButRegsPc (s.setReg x (g s)) Reg.F _

section
variable {i : Instr} {x : Reg} {s : State} {c : Bool} {post : State → Prop}

/-- 8XY7's shape (R114): `post` need only follow from what the two writes leave in the registers. -/
theorem FlagResult.of_setReg_setFlag {b : Byte} (hexec : exec i s = .next ((s.setReg x b).setFlag c).advance)
    (hpost : ∀ t : State, (∀ r, t.reg r = ((s.setReg x b).setFlag c).reg r) → post t) : FlagResult i x s post := by
  refine ⟨_, hexec, rfl, fun r hx hF => ?_, ?_, hpost _ fun _ => rfl⟩
  · exact (setFlag_reg_of_ne _ c hF).trans (s.setReg_reg_other x b r hx)
  · exact setReg_advance_keepsAllButRegsPc (s.setReg x b) Reg.F _

/-- The shape of 8XY4, 8XY5, 8XY6 and 8XYE (R111 to R113, R115): `post` need only follow from what the operation leaves
in the registers. -/
theorem FlagResult.of_flagAndResult {g : State → Byte} (hexec : exec i s = .next (s.flagAndResult x c g).advance)
    (hpost : ∀ t : State, (∀ r, t.reg r = (s.flagAndResult x c g).reg r) → post t) : FlagResult i x s post := by
  refine ⟨_, hexec, ?_, fun r hx hF => ?_, flagAndResult_advance_keepsAllButRegsPc s x c g, hpost _ fun _ => rfl⟩
  · rw [State.advance_pc, State.flagAndResult_pc]
  · rw [State.advance_reg, State.flagAndResult_reg]
    cases s.cfg.flagOrder with
    | asWritten => exact (if_neg hx).trans (if_neg hF)
    | flagLast => exact (if_neg hF).trans (if_neg hx)

end

/-- Settles O25: the sum is of the operands as they were under both orders. -/
theorem addWithCarryResult : Obligations.AddWithCarryResult := by
  intro x y s
  refine FlagResult.of_flagAndResult rfl fun t regs => ⟨fun hx => ⟨?_, ?_⟩, ?_, ?_⟩
  · rw [regs, flagAndResult_reg_of_ne hx rfl, BitVec.toNat_add]
  · rw [regs, flagAndResult_flag_of_ne hx, flagByte_carryOfSum]
  · rintro rfl order
    rw [regs, flagAndResult_reg_asWritten order, BitVec.toNat_add]
  · rintro - order
    rw [regs, flagAndResult_flag_flagLast order, flagByte_carryOfSum]

/-- Settles O26: as written, an operand that is VF is the flag when the difference is taken (R112, cases (a) to (f)). -/
theorem subtractResult : Obligations.SubtractResult := by
  intro x y s f hf
  obtain rfl : f = flagByte (greater (s.reg x) (s.reg y)) := hf.trans (flagByte_greater _ _).symm
  refine FlagResult.of_flagAndResult rfl fun t regs =>
    ⟨fun hx hy => ⟨?_, ?_⟩, ?_, ?_, fun hx hy order => ⟨?_, ?_⟩, fun hx hy order => ⟨?_, ?_⟩, ?_⟩
  -- X and Y are not F: (a) to (c)
  · rw [regs, flagAndResult_reg_of_ne hx (by rw [setFlag_reg_of_ne _ _ hx, setFlag_reg_of_ne _ _ hy]), byte_sub_toNat]
  · rw [regs, flagAndResult_flag_of_ne hx]
  -- X = F alone: (d)
  · rintro rfl hy order
    rw [regs, flagAndResult_reg_asWritten order, setFlag_reg_flag, setFlag_reg_of_ne _ _ hy, byte_sub_toNat]
  · rintro - - order
    rw [regs, flagAndResult_flag_flagLast order]
  -- Y = F alone: (e)
  · subst hy
    rw [regs, flagAndResult_reg_asWritten order, setFlag_reg_flag, setFlag_reg_of_ne _ _ hx, byte_sub_toNat]
  · rw [regs, flagAndResult_flag_of_ne hx]
  · rw [regs, flagAndResult_reg_flagLast order hx, byte_sub_toNat]
  · rw [regs, flagAndResult_flag_of_ne hx]
  -- X = Y = F: (f)
  · rintro rfl rfl
    rw [regs]
    cases order : s.cfg.flagOrder with
    | asWritten => exact (flagAndResult_reg_asWritten order).trans (BitVec.sub_self _)
    | flagLast => rw [flagAndResult_flag_flagLast order, flagByte_greater_self]

/-- Settles O27: as written with X = F, what is shifted is the flag. -/
theorem shiftRightResult : Obligations.ShiftRightResult := by
  intro x y s
  refine FlagResult.of_flagAndResult rfl fun t regs => ⟨fun hx => ⟨?_, ?_⟩, ?_, ?_⟩
  · rw [regs, flagAndResult_reg_of_ne hx (by rw [setFlag_reg_of_ne _ _ hx]), byte_shiftRight_one_toNat]
  · rw [regs, flagAndResult_flag_of_ne hx, flagByte_shiftedOutRight_toNat]
  · rintro rfl order
    rw [regs, flagAndResult_reg_asWritten order, setFlag_reg_flag, flagByte_shiftRight_one]
  · rintro - order
    rw [regs, flagAndResult_flag_flagLast order, flagByte_shiftedOutRight_toNat]

/-- Settles O28: the flag's write comes last under both orders, and compares the operands as they were. -/
theorem subtractFromResult : Obligations.SubtractFromResult := by
  intro x y s f hf
  obtain rfl : f = flagByte (greater (s.reg y) (s.reg x)) := hf.trans (flagByte_greater _ _).symm
  refine FlagResult.of_setReg_setFlag rfl fun t regs => ⟨fun hx => ?_, ?_⟩
  · rw [regs, setFlag_reg_of_ne _ _ hx, State.setReg_reg_same, byte_sub_toNat]
  · rw [regs, setFlag_reg_flag]

/-- Settles O29: as written with X = F, what is shifted is the flag. -/
theorem shiftLeftResult : Obligations.ShiftLeftResult := by
  intro x y s
  refine FlagResult.of_flagAndResult rfl fun t regs => ⟨fun hx => ⟨?_, ?_⟩, ?_, ?_⟩
  · rw [regs, flagAndResult_reg_of_ne hx (by rw [setFlag_reg_of_ne _ _ hx]), byte_shiftLeft_one_toNat]
  · rw [regs, flagAndResult_flag_of_ne hx, flagByte_shiftedOutLeft_toNat]
  · rintro rfl order
    rw [regs, flagAndResult_reg_asWritten order, setFlag_reg_flag, flagByte_shiftLeft_one_toNat,
      flagByte_shiftedOutLeft_toNat]
  · rintro - order
    rw [regs, flagAndResult_flag_flagLast order, flagByte_shiftedOutLeft_toNat]

/-! ## The random byte -/

theorem dropRandom_keepsAllButRegsPcRandom (s : State) : KeepsAllButRegsPcRandom s s.dropRandom :=
  ⟨s.dropRandom_byteAt, s.dropRandom_idx, s.dropRandom_stack, ⟨s.dropRandom_dt, s.dropRandom_st⟩,
    fun p => congrArg (Framebuffer.pixel · p) s.dropRandom_fb,
    ⟨s.dropRandom_run, s.dropRandom_fault, s.dropRandom_started⟩, ⟨s.dropRandom_key, s.dropRandom_cfg⟩⟩

/-- Settles O30: the byte is the one the state takes its random input from. -/
theorem randomResult : Obligations.RandomResult := by
  intro x nn s
  refine ⟨_, s.randomByte, rfl, State.setReg_reg_same _ x _, ?_, fun r hr => ?_, dropRandom_keepsAllButRegsPcRandom s,
    s.dropRandom_supplied⟩
  · rw [State.advance_pc, State.setReg_pc, State.dropRandom_pc]
  · rw [State.advance_reg, State.setReg_reg_other _ _ _ _ hr, State.dropRandom_reg]

/-- Settles O31: the step of a running core that fetches CXNN is that CXNN with `r` as the one byte supplied. -/
theorem stepWithRandomByte : Obligations.StepWithRandomByte := by
  intro x nn r s run inRange hdecode
  obtain ⟨t, b, hexec, value, pc, regs, frame, supplied⟩ := randomResult x nn (s.withRand [r]).start
  obtain ⟨mem, idx, stack, timers, display, ⟨hrun, fault, started⟩, inputs⟩ := frame
  obtain ⟨hb, -, draws⟩ := supplied r [] rfl
  have hstep : step (s.withRand [r]) = .next t := by
    refine (step_running (s.withRand [r]) run inRange).trans (Eq.trans ?_ hexec)
    exact congrArg (exec · _) hdecode
  have hok : t.stepReply = .stepOk := stepReply_running (hrun.trans run)
  exact ⟨t.withRand s.rand, hok ▸ stepWithByte_next r s t hstep, hb ▸ value, pc, started, hrun.trans run, fault, regs,
    mem, idx, stack, timers, display, inputs, rfl, draws⟩

end Sys2Proof.Machine

/-! # The index register and memory (`44_index_memory.md` R118 to R122) -/

namespace Sys2Proof.Machine

/-! ## The index register -/

/-- Everything but I and `pc` is as before. -/
abbrev KeepsAllButIndexPc (s t : State) : Prop :=
  KeepsRegs s t ∧ KeepsMemory s t ∧ KeepsStack s t ∧ KeepsTimers s t ∧ KeepsDisplay s t ∧ KeepsControl s t ∧
    KeepsInputs s t ∧ KeepsRandom s t

theorem setIdx_advance_keepsAllButIndexPc (s : State) (a : Word) : KeepsAllButIndexPc s (s.setIdx a).advance :=
  ⟨fun _ => rfl, fun _ => rfl, rfl, ⟨rfl, rfl⟩, fun _ => rfl, ⟨rfl, rfl, rfl⟩, ⟨rfl, rfl⟩, ⟨rfl, rfl⟩⟩

theorem two_pow_bits_le (c : IndexWrap) : 2 ^ c.bits ≤ 2 ^ 16 := by cases c <;> decide

/-- The wrapped sum fits in I's 16 bits under both values of `I_WRAP_BITS`, so storing it loses nothing (R19). -/
theorem State.indexSum_toNat (s : State) (x : Reg) :
    (s.indexSum x).toNat = (s.idx.toNat + (s.reg x).toNat) % 2 ^ s.cfg.indexWrap.bits :=
  (BitVec.toNat_ofNat _ 16).trans
    (Nat.mod_eq_of_lt (Nat.lt_of_lt_of_le (Nat.mod_lt _ (Nat.two_pow_pos _)) (two_pow_bits_le _)))

/-- Settles O43: both write I and `pc` alone. -/
theorem indexResults : Obligations.IndexResults := fun nnn x s =>
  ⟨⟨_, rfl, addrOf_toNat nnn, rfl, setIdx_advance_keepsAllButIndexPc s _⟩,
    ⟨_, rfl, s.indexSum_toNat x, rfl, setIdx_advance_keepsAllButIndexPc s _⟩⟩

/-! ## The stores -/

/-- Everything but memory and `pc` is as before. -/
abbrev KeepsAllButMemoryPc (s t : State) : Prop :=
  KeepsRegs s t ∧ KeepsIndex s t ∧ KeepsStack s t ∧ KeepsTimers s t ∧ KeepsDisplay s t ∧ KeepsControl s t ∧
    KeepsInputs s t ∧ KeepsRandom s t

theorem setMem_advance_keepsAllButMemoryPc (s : State) (m : Memory) : KeepsAllButMemoryPc s (s.setMem m).advance :=
  ⟨fun _ => rfl, rfl, rfl, ⟨rfl, rfl⟩, fun _ => rfl, ⟨rfl, rfl, rfl⟩, ⟨rfl, rfl⟩, ⟨rfl, rfl⟩⟩

/-- Storing `count` bytes from `a` on changes no other byte (R52). -/
theorem setMem_writeBytes_keepsMemoryOutside (s : State) (a : Nat) {count : Nat} {bs : List Byte}
    (hlen : bs.length = count) : KeepsMemoryOutside a count s (s.setMem (s.mem.writeBytes a bs)).advance :=
  fun c outside => Memory.read_writeBytes_outside s.mem a c bs (hlen ▸ outside)

/-- The digits of a byte in numbers: each is below 256, so its byte loses nothing (R120). -/
theorem decimalDigits_toNat (b : Byte) :
    ((decimalDigits b).getD 0 0).toNat = b.toNat / 100 ∧ ((decimalDigits b).getD 1 0).toNat = b.toNat / 10 % 10 ∧
      ((decimalDigits b).getD 2 0).toNat = b.toNat % 10 := by
  have hb : b.toNat < 256 := b.isLt
  refine ⟨?_, ?_, ?_⟩ <;> exact (BitVec.toNat_ofNat _ 8).trans (Nat.mod_eq_of_lt (by omega))

/-- Settles O44: in range the three bytes stored are the digits; out of range the store is not begun. -/
theorem digitsResult : Obligations.DigitsResult := by
  intro x s
  constructor
  · intro inRange
    have hexec := exec_ldB_inside (x := x) inRange
    obtain ⟨hundreds, tens, units⟩ := decimalDigits_toNat (s.reg x)
    have digit (k : Nat) (hk : k < 3) := congrArg BitVec.toNat (exec_ldB_byteAt inRange hexec hk)
    exact ⟨_, hexec, (digit 0 (by decide)).trans hundreds, (digit 1 (by decide)).trans tens,
      (digit 2 (by decide)).trans units, setMem_writeBytes_keepsMemoryOutside s _ (decimalDigits_length _), rfl,
      setMem_advance_keepsAllButMemoryPc s _⟩
  · intro outside
    exact withDataRange_outside (by decide) (by omega)

/-- Settles O45: in range each register up to V[X] is stored at its place; out of range the store is not begun. -/
theorem storeRegistersResult : Obligations.StoreRegistersResult := by
  intro x s
  constructor
  · intro inRange
    have hexec := exec_ldMemVx_inside inRange
    exact ⟨_, hexec, fun _ hr => exec_ldMemVx_byteAt inRange hexec hr,
      setMem_writeBytes_keepsMemoryOutside s _ (s.regsUpTo_length x), rfl, setMem_advance_keepsAllButMemoryPc s _⟩
  · intro outside
    exact withDataRange_outside (Nat.succ_ne_zero _) (by omega)

/-! ## The load -/

/-- FX65 in range loads V0 to V[x] from I on (R122). -/
theorem exec_ldVxMem_inside {x : Reg} {s : State} (h : s.idx.toNat + x.val ≤ 0xFFF) :
    exec (.ldVxMem x) s = .next (State.advance { s with v := s.loadedRegs x }) :=
  withDataRange_inside (by omega)

theorem setV_advance_keepsAllButRegsPc (s : State) (v : Vector Byte 16) :
    KeepsAllButRegsPc s (State.advance { s with v := v }) :=
  ⟨⟨fun _ => rfl, rfl, rfl, ⟨rfl, rfl⟩, fun _ => rfl, ⟨rfl, rfl, rfl⟩, ⟨rfl, rfl⟩⟩, ⟨rfl, rfl⟩⟩

/-- Settles O46: in range the register file is the loaded one; out of range the load is not begun. -/
theorem loadRegistersResult : Obligations.LoadRegistersResult := by
  intro x s
  constructor
  · intro inRange
    exact ⟨_, exec_ldVxMem_inside inRange, fun r hr => (s.loadedRegs_get x r).trans (if_pos hr),
      fun r hr => (s.loadedRegs_get x r).trans (if_neg (Nat.not_le.2 hr)), rfl,
      setV_advance_keepsAllButRegsPc s _⟩
  · intro outside
    exact withDataRange_outside (Nat.succ_ne_zero _) (by omega)

/-- Settles O47: with I kept, the load reads each register from the byte it was stored to. -/
theorem storeThenLoadRestoresRegisters : Obligations.StoreThenLoadRestoresRegisters := by
  intro x s t v inRange hstore hidx kept
  obtain ⟨u, hload, loaded, -⟩ := (loadRegistersResult x v).1 (hidx ▸ inRange)
  refine ⟨u, hload, fun r hr => ?_⟩
  calc u.reg r
    _ = v.byteAt (s.idx.toNat + r.val) := hidx ▸ loaded r hr
    _ = t.byteAt (s.idx.toNat + r.val) := kept r hr
    _ = s.reg r := exec_ldMemVx_byteAt inRange hstore hr

end Sys2Proof.Machine

/-! # Keys and timers (`45_keys_timers.md` R123 to R130) -/

namespace Sys2Proof.Machine

/-! ## The key skips -/

/-- Under `LowNibble` every byte has a key index, its low nibble (R125). -/
theorem keyIndex_lowNibble (b : Byte) :
    keyIndex .lowNibble b = some ⟨b.toNat % 16, Nat.mod_lt _ (by decide)⟩ := by
  unfold keyIndex
  split
  next low => simp [Nat.mod_eq_of_lt low]
  next => rfl

/-- The key index of a value up to 0xF, or of any value under `LowNibble`, is the key of its low nibble (R125). -/
theorem keyIndex_eq_some {mode : KeyIndexMode} {b : Byte} {k : Key} (hk : b.toNat % 16 = k.val)
    (named : b.toNat ≤ 0xF ∨ mode = .lowNibble) : keyIndex mode b = some k := by
  obtain low | rfl := named
  · replace low : b.toNat < 16 := Nat.lt_succ_of_le low
    rw [Nat.mod_eq_of_lt low] at hk
    rw [keyIndex_low mode b low]
    exact congrArg some (Fin.ext hk)
  · rw [keyIndex_lowNibble]
    exact congrArg some (Fin.ext hk)

/-- Where V[x] names a key, a key skip is the skip on that key (R123, R124). -/
theorem keySkip_named {w : Word} {x : Reg} {wanted : Bool} {s : State} {k : Key}
    (h : keyIndex s.cfg.keyIndexMode (s.reg x) = some k) :
    keySkip w x wanted s = .next (s.skipIf (s.keyDown k == wanted)) := by
  simp [keySkip, h]

/-- Where V[x] names none, a key skip raises KeyOutOfRange with V[x] as info (R125). -/
theorem keySkip_unnamed {w : Word} {x : Reg} {wanted : Bool} {s : State}
    (h : keyIndex s.cfg.keyIndexMode (s.reg x) = none) :
    keySkip w x wanted s = raise .keyOutOfRange (some w) (s.reg x).toNat s := by
  simp [keySkip, h]

/-- Settles O49: both are the key skip of the key V[x] names, or its fault; EX9E wants the key down, EXA1 up. -/
theorem keySkipResults : Obligations.KeySkipResults := by
  intro x s k hk
  constructor
  · intro named
    have hkey := keyIndex_eq_some hk named
    refine ⟨⟨_, keySkip_named hkey, ?_, setPc_keepsAllButPc s _⟩, ⟨_, keySkip_named hkey, ?_, setPc_keepsAllButPc s _⟩⟩
    · simp
    · cases s.keyDown k <;> simp
  · rintro ⟨high, mode⟩
    have hkey := (keyIndex_none_iff _ _).2 ⟨mode, high⟩
    exact ⟨keySkip_unnamed hkey, keySkip_unnamed hkey⟩

/-! ## The key wait -/

theorem exec_ldVxK_pressed {x : Reg} {s : State} {k : Nat} (h : lowestKey s.key = some k) :
    exec (.ldVxK x) s = .next (s.setReg x (BitVec.ofNat 8 k)).advance := by
  simp [exec, execLdVxK, h]

theorem exec_ldVxK_unpressed {x : Reg} {s : State} (h : lowestKey s.key = none) :
    exec (.ldVxK x) s = .next (s.setRun (.awaitingKey x)) := by
  simp [exec, execLdVxK, h]

/-- A key number fits in a register. -/
theorem ofNat_key_toNat (k : Key) : (BitVec.ofNat 8 k.val).toNat = k.val :=
  (BitVec.toNat_ofNat _ 8).trans (Nat.mod_eq_of_lt (k.isLt.trans (by decide)))

/-- Settles O50: the lowest pressed key is written to V[x] alone; with none pressed the run state alone changes. -/
theorem keyWaitResult : Obligations.KeyWaitResult := by
  intro x s
  constructor
  · intro k down lower
    have hreg : ((s.setReg x (BitVec.ofNat 8 k.val)).reg x).toNat = k.val := by
      rw [State.setReg_reg_same, ofNat_key_toNat]
    exact ⟨_, exec_ldVxK_pressed (lowestKey_eq_some down lower), hreg, rfl, fun r => s.setReg_reg_other x _ r,
      setReg_advance_keepsAllButRegsPc s x _⟩
  · intro up
    exact exec_ldVxK_unpressed (lowestKey_eq_none up)

/-! ## The timer moves -/

/-- Everything but the timers and `pc` is as before. -/
abbrev KeepsAllButTimersPc (s t : State) : Prop :=
  KeepsRegs s t ∧ KeepsMemory s t ∧ KeepsIndex s t ∧ KeepsStack s t ∧ KeepsDisplay s t ∧ KeepsControl s t ∧
    KeepsInputs s t ∧ KeepsRandom s t

theorem timers_advance_keepsAllButTimersPc (s : State) (dt st : Byte) :
    KeepsAllButTimersPc s (State.advance { s with dt := dt, st := st }) :=
  ⟨fun _ => rfl, fun _ => rfl, rfl, rfl, fun _ => rfl, ⟨rfl, rfl, rfl⟩, ⟨rfl, rfl⟩, ⟨rfl, rfl⟩⟩

/-- Settles O51: FX07 writes V[x] alone, FX15 and FX18 one timer alone. -/
theorem timerMoveResults : Obligations.TimerMoveResults := fun x =>
  ⟨.of_setReg (fun _ => rfl) fun _ => rfl, fun s =>
    ⟨⟨_, rfl, rfl, rfl, rfl, timers_advance_keepsAllButTimersPc s (s.reg x) s.st⟩,
      ⟨_, rfl, rfl, rfl, rfl, timers_advance_keepsAllButTimersPc s s.dt (s.reg x)⟩⟩⟩

end Sys2Proof.Machine

/-! # Unrecognized words (`46_unrecognized.md` R131, R132) -/

namespace Sys2Proof

/-! ## The words of each group that no row has -/

theorem decodeGroup0_eq_dw_iff {strict : Bool} {w : Word} :
    decodeGroup0 strict w = .dw w ↔ (strict = true ∧ fieldXBits w ≠ 0x0) ∨ fieldNN w ∉ [0xE0, 0xEE] := by
  cases strict with
  | false => simp [decodeGroup0, ite_eq_iff]
  | true => by_cases fixed : fieldXBits w = 0#4 <;> simp [decodeGroup0, ite_eq_iff, fixed]

theorem decodeGroup8_eq_dw_iff {w : Word} :
    decodeGroup8 w = .dw w ↔ fieldN w ∉ [0x0, 0x1, 0x2, 0x3, 0x4, 0x5, 0x6, 0x7, 0xE] := by
  simp [decodeGroup8, ite_eq_iff]

theorem decodeGroupE_eq_dw_iff {w : Word} : decodeGroupE w = .dw w ↔ fieldNN w ∉ [0x9E, 0xA1] := by
  simp [decodeGroupE, ite_eq_iff]

theorem decodeGroupF_eq_dw_iff {w : Word} :
    decodeGroupF w = .dw w ↔ fieldNN w ∉ [0x07, 0x0A, 0x15, 0x18, 0x1E, 0x33, 0x55, 0x65] := by
  simp [decodeGroupF, ite_eq_iff]

/-- The decoder answers an unrecognized word in six groups only: the other ten are one row each (R67). -/
theorem decode_eq_dw_iff {strict : Bool} {w : Word} :
    decode strict w = .dw w ↔
      (fieldOp w = 0x0 ∧ decodeGroup0 strict w = .dw w) ∨ (fieldOp w = 0x5 ∧ strict = true ∧ fieldN w ≠ 0x0) ∨
      (fieldOp w = 0x8 ∧ decodeGroup8 w = .dw w) ∨ (fieldOp w = 0x9 ∧ strict = true ∧ fieldN w ≠ 0x0) ∨
      (fieldOp w = 0xE ∧ decodeGroupE w = .dw w) ∨ (fieldOp w = 0xF ∧ decodeGroupF w = .dw w) := by
  unfold decode
  generalize fieldOp w = op
  obtain ⟨n, hn⟩ := op
  match n, hn with
  | 0x0, _ | 0x8, _ | 0xE, _ | 0xF, _ => simp
  | 0x5, _ | 0x9, _ => simp [and_comm]
  | 0x1, _ | 0x2, _ | 0x3, _ | 0x4, _ | 0x6, _ | 0x7, _ | 0xA, _ | 0xB, _ | 0xC, _ | 0xD, _ => simp
  | n + 16, hn => omega

/-- A word of group `op` is known by its X and NN (R64). -/
theorem eq_wordXNN_iff {w : Word} {op x : Nibble} {nn : Byte} (hop : fieldOp w = op) :
    w = wordXNN op x nn ↔ fieldXBits w = x ∧ fieldNN w = nn := by
  constructor
  · rintro rfl
    simp
  · rintro ⟨rfl, hnn⟩
    exact (wordXNN_of_fields hop hnn).symm

/-- A strict decoder's test of X and NN leaves every word of group 0 but two (R68). -/
theorem ne_cls_ne_ret_iff {w : Word} (hop : fieldOp w = 0x0) :
    w ≠ 0x00E0 ∧ w ≠ 0x00EE ↔ fieldXBits w ≠ 0x0 ∨ fieldNN w ∉ [0xE0, 0xEE] := by
  have hE0 : w = 0x00E0 ↔ fieldXBits w = 0x0 ∧ fieldNN w = 0xE0 := eq_wordXNN_iff (x := 0x0) (nn := 0xE0) hop
  have hEE : w = 0x00EE ↔ fieldXBits w = 0x0 ∧ fieldNN w = 0xEE := eq_wordXNN_iff (x := 0x0) (nn := 0xEE) hop
  rw [Ne, Ne, hE0, hEE]
  by_cases hx : fieldXBits w = 0#4 <;> simp [hx]

/-- The seven values of N that the rows of group 8 leave (R70). -/
theorem nibble_not_mem_group8_iff : ∀ n : Nibble,
    n ∉ [0x0, 0x1, 0x2, 0x3, 0x4, 0x5, 0x6, 0x7, 0xE] ↔ n ∈ [0x8, 0x9, 0xA, 0xB, 0xC, 0xD, 0xF] := by
  decide

/-- Settles O5, by the decoder's groups: without `STRICT_DECODE` the groups 5 and 9 fall away, and with it group 0 is all
but two words. -/
theorem unrecognizedWordsByGroup : Obligations.UnrecognizedWordsByGroup := by
  intro w
  simp only [decode_eq_dw_iff, decodeGroup0_eq_dw_iff, decodeGroup8_eq_dw_iff, nibble_not_mem_group8_iff,
    decodeGroupE_eq_dw_iff, decodeGroupF_eq_dw_iff]
  constructor
  · simp only [true_and]
    exact or_congr_left (and_congr_right fun hop => (ne_cls_ne_ret_iff hop).symm)
  · simp only [Bool.false_eq_true, false_and, and_false, false_or]

end Sys2Proof

namespace Sys2Proof.Machine

/-- Settles O42: the meaning is the advance of `pc`. -/
theorem unrecognizedWordDoesNothing : Obligations.UnrecognizedWordDoesNothing := fun _ s =>
  ⟨_, rfl, rfl, setPc_keepsAllButPc s _⟩

end Sys2Proof.Machine

/-! # Faults (`60_exceptions.md` R133 to R140) -/

namespace Sys2Proof.Machine

/-! ## Faults are precise -/

/-- An instruction that leaves a running core halted only takes a fault, recorded at its own address (R134, R136). -/
theorem exec_halted {i : Instr} {s t : State} (h : exec i s = .next t) (run : s.run = .running)
    (halted : t.run = .halted) : ∃ f : FaultRecord, f.pc = s.pc ∧ t = { s with run := .halted, fault := some f } := by
  cases exec_effect h with
  | fault k info _ => exact ⟨_, rfl, rfl⟩
  | registers frame _ _ => simp [frame.run, run] at halted
  | store | index | clear | draw | call | ret | wait => simp [run] at halted

/-- A poll halts no core (R128). -/
theorem keyWaitPoll_run_ne_halted {x : Reg} {s t : State} (h : keyWaitPoll x s = .next t) (run : s.run ≠ .halted) :
    t.run ≠ .halted := by
  obtain ⟨k, -, rfl⟩ | ⟨-, rfl⟩ := keyWaitPoll_cases x s t h
  · exact nofun
  · exact run

/-- Settles O17: of what a step does, only an instruction's fault and the fetch fault halt the core. -/
theorem faultsArePrecise : Obligations.FaultsArePrecise := by
  intro s t notHalted h halted
  obtain ⟨run, -⟩ | ⟨x, run, hpoll⟩ | ⟨run, -, hexec⟩ | ⟨-, -, rfl⟩ := step_cases s t h
  · exact absurd run notHalted
  · exact absurd halted (keyWaitPoll_run_ne_halted hpoll notHalted)
  · exact exec_halted hexec run halted
  · exact ⟨_, rfl, rfl⟩

/-! ## The listed causes -/

/-- The instruction answers a core that is not halted and holds the record it held before. -/
abbrev CompletesUnfaulted (i : Instr) (s : State) : Prop :=
  ∃ t, exec i s = .next t ∧ t.run ≠ .halted ∧ t.fault = s.fault

/-- The instruction takes the fault it meets, if any, and completes otherwise. -/
abbrev FaultsAsMet (i : Instr) (s : State) (met : Option (Fault × Nat)) : Prop :=
  (∀ k info, met = some (k, info) → exec i s = .next (s.halt k (some (encode i)) info)) ∧
    (met = none → CompletesUnfaulted i s)

theorem FaultsAsMet.of_completes {i : Instr} {s : State} (h : CompletesUnfaulted i s) : FaultsAsMet i s none :=
  ⟨nofun, fun _ => h⟩

/-- An instruction with one check. -/
theorem FaultsAsMet.of_check {i : Instr} {s : State} {c : Prop} [Decidable c] {k : Fault} {info : Nat}
    (hfault : c → exec i s = .next (s.halt k (some (encode i)) info)) (hok : ¬ c → CompletesUnfaulted i s) :
    FaultsAsMet i s (if c then some (k, info) else none) := by
  split
  next hc =>
    refine ⟨fun k' info' hmet => ?_, nofun⟩
    cases hmet
    exact hfault hc
  next hc => exact .of_completes (hok hc)

/-- A guarded memory instruction whose check is the bound of R49 on its `count` bytes. -/
theorem FaultsAsMet.of_withDataRange {i : Instr} {s e : State} {count : Nat} {c : Prop} [Decidable c]
    (hexec : exec i s = withDataRange (encode i) count s e) (run : e.run ≠ .halted) (fault : e.fault = s.fault)
    (outside : c ↔ count ≠ 0 ∧ 4096 < s.idx.toNat + count) :
    FaultsAsMet i s (if c then some (.outOfBounds, max s.idx.toNat 0x1000) else none) := by
  refine .of_check (fun hc => ?_) fun hc => ⟨e, hexec.trans (withDataRange_inside ?_), run, fault⟩
  · obtain ⟨hcount, hout⟩ := outside.1 hc
    exact hexec.trans (withDataRange_outside hcount hout)
  · rw [outside] at hc
    omega

/-- A key skip's check is the key index of R125. -/
theorem FaultsAsMet.of_keySkip {i : Instr} {s : State} {x : Reg} {wanted : Bool}
    (hexec : exec i s = keySkip (encode i) x wanted s) (run : s.run ≠ .halted) :
    FaultsAsMet i s (if 0xF < (s.reg x).toNat ∧ s.cfg.keyIndexMode = .fault then
      some (.keyOutOfRange, (s.reg x).toNat) else none) := by
  refine .of_check (fun ⟨high, mode⟩ => ?_) fun hc => ?_
  · exact hexec.trans (keySkip_unnamed ((keyIndex_none_iff _ _).2 ⟨mode, high⟩))
  · have named : keyIndex s.cfg.keyIndexMode (s.reg x) ≠ none :=
      fun hnone => hc ((keyIndex_none_iff _ _).1 hnone).symm
    obtain ⟨k, hk⟩ := Option.ne_none_iff_exists'.1 named
    exact ⟨_, hexec.trans (keySkip_named hk), run, rfl⟩

theorem ret_faultsAsMet {n : Nibble} {s : State} (run : s.run ≠ .halted) :
    FaultsAsMet (.ret n) s (faultMet s (.ret n)) := by
  refine .of_check (fun hempty => exec_ret_empty (List.length_eq_zero_iff.1 hempty)) fun hentry => ?_
  have nonempty : s.stack ≠ [] := fun h => hentry (List.length_eq_zero_iff.2 h)
  exact ⟨_, exec_ret_top (List.dropLast_append_getLast nonempty).symm, run, rfl⟩

theorem call_faultsAsMet {nnn : Addr12} {s : State} (run : s.run ≠ .halted) (bounded : StackBounded s) :
    FaultsAsMet (.call nnn) s (faultMet s (.call nnn)) :=
  .of_check (fun hfull => exec_call_full hfull.ge) fun hroom =>
    ⟨_, exec_call_room (Nat.lt_of_le_of_ne bounded hroom), run, rfl⟩

theorem ldVxK_completes {x : Reg} {s : State} (run : s.run ≠ .halted) : CompletesUnfaulted (.ldVxK x) s := by
  cases hkey : lowestKey s.key with
  | some k => exact ⟨_, exec_ldVxK_pressed hkey, run, rfl⟩
  | none => exact ⟨_, exec_ldVxK_unpressed hkey, nofun, rfl⟩

theorem flagAndResult_completes {i : Instr} {s : State} {x : Reg} {c : Bool} {g : State → Byte}
    (hexec : exec i s = .next (s.flagAndResult x c g).advance) (run : s.run ≠ .halted) : CompletesUnfaulted i s :=
  ⟨_, hexec, by simpa using run, by simp⟩

/-- The table of R133 is the checks of the seven instructions that have one. -/
theorem exec_faultsAsMet (i : Instr) {s : State} (run : s.run ≠ .halted) (bounded : StackBounded s) :
    FaultsAsMet i s (faultMet s i) := by
  cases i with
  | ret n => exact ret_faultsAsMet run
  | call nnn => exact call_faultsAsMet run bounded
  | drw x y n => exact .of_withDataRange rfl run rfl (by omega)
  | ldB x => exact .of_withDataRange rfl run rfl (by omega)
  | ldMemVx x => exact .of_withDataRange rfl run rfl (by omega)
  | ldVxMem x => exact .of_withDataRange rfl run rfl (by omega)
  | skp x | sknp x => exact .of_keySkip rfl run
  | ldVxK x => exact .of_completes (ldVxK_completes run)
  | addReg | subReg | shr | shl => exact .of_completes (flagAndResult_completes rfl run)
  | rnd x nn => exact .of_completes ⟨_, rfl, by simpa using run, by simp⟩
  | cls | jp | seByte | sneByte | seReg | ldByte | addByte | ldReg | orReg | andReg | xorReg | subnReg | sneReg | ldI |
    jpV0 | ldVxDt | ldDtVx | ldStVx | addI | dw => exact .of_completes ⟨_, rfl, run, rfl⟩

/-- Settles O18: a running core is not halted, so each instruction faults as its check in the table says. -/
theorem faultsHaveTheListedCauses : Obligations.FaultsHaveTheListedCauses := by
  intro i s run bounded
  exact exec_faultsAsMet i (by simp [run]) bounded

/-! ## The one way out -/

/-- Settles O20: `STEP` keeps a halted core, `LOAD` writes memory at most, the ports write no run state. -/
theorem onlyResetLeavesHalted : Obligations.OnlyResetLeavesHalted := by
  intro op s t reply halted h
  cases op with
  | reset =>
    cases h
    exact .inr ⟨rfl, rfl, rfl⟩
  | load bytes =>
    obtain ⟨-, ⟨-, rfl⟩ | rfl⟩ := perform_load_cases h <;> exact .inl ⟨halted, rfl⟩
  | step r =>
    cases (stepWithByte_halted r s halted).symm.trans h
    exact .inl ⟨halted, rfl⟩
  | keysWrite | keysClear | tick | fbRead | statusRead =>
    cases h
    exact .inl ⟨halted, rfl⟩

end Sys2Proof.Machine

/-! # The host's ports (`60_exceptions.md` R142 to R147) -/

namespace Sys2Proof.Machine

theorem countDown_toNat (b : Byte) : (countDown b).toNat = b.toNat - 1 := by
  unfold countDown
  split <;> bv_omega

/-- Settles O54, by the countdown of each timer. -/
theorem tickResult : Obligations.TickResult := fun s =>
  ⟨s.ticked, rfl, countDown_toNat s.dt, countDown_toNat s.st, rfl, fun _ => rfl, fun _ => rfl, rfl, rfl, fun _ => rfl,
    ⟨rfl, rfl, rfl⟩, ⟨rfl, rfl⟩, ⟨rfl, rfl⟩⟩

theorem keyDown_keysCleared (s : State) (k : Key) : s.keysCleared.keyDown k = false := BitVec.getLsbD_zero

/-- Settles O56: the latch is the only field either writes. -/
theorem keyPortResults : Obligations.KeyPortResults := fun _ s =>
  ⟨rfl, s.keysCleared, rfl, rfl, keyDown_keysCleared s⟩

theorem pixelBits_length (s : State) : s.pixelBits.length = 2048 := by
  rw [State.pixelBits, List.length_map, List.length_finRange]

theorem pixelBits_getElem? (s : State) (p : Pixel) : s.pixelBits[p.val]? = some (Framebuffer.pixel s.fb p) := by
  simp [State.pixelBits]

/-- Settles O57: bit p of the read-out is pixel p. -/
theorem readPortResults : Obligations.ReadPortResults := fun s =>
  ⟨⟨s.pixelBits, rfl, pixelBits_length s, pixelBits_getElem? s⟩, rfl⟩

end Sys2Proof.Machine

/-! # The frame (`60_exceptions.md` R145)

`FrameRun` lists the ways the steps of a frame can go; `frameSteps_run` is its one proof. What the steps keep, how many
replies they give and that they are the operations issued one by one follow by induction on it. -/

namespace Sys2Proof.Machine

/-! ## Operations issued one by one -/

theorem performAll_cons {op : HostOp} {ops : List HostOp} {s t u : State} {reply : Reply} {replies : List Reply}
    (h : perform op s = .next (t, reply)) (hrest : performAll ops t = .next (u, replies)) :
    performAll (op :: ops) s = .next (u, reply :: replies) := by
  simp [performAll, h, hrest]

/-- The first of the operations, and the others after it. -/
theorem performAll_cons_cases {op : HostOp} {ops : List HostOp} {s u : State} {replies : List Reply}
    (h : performAll (op :: ops) s = .next (u, replies)) :
    ∃ t reply rest, perform op s = .next (t, reply) ∧ performAll ops t = .next (u, rest) ∧
      replies = reply :: rest := by
  unfold performAll at h
  split at h
  next t reply hop =>
    split at h
    next u' rest hrest =>
      cases h
      exact ⟨t, reply, rest, hop, hrest, rfl⟩
    all_goals cases h
  all_goals cases h

theorem performAll_append {ops ops' : List HostOp} {s t u : State} {replies replies' : List Reply}
    (h : performAll ops s = .next (t, replies)) (h' : performAll ops' t = .next (u, replies')) :
    performAll (ops ++ ops') s = .next (u, replies ++ replies') := by
  induction ops generalizing s replies with
  | nil =>
    cases h
    exact h'
  | cons op ops ih =>
    obtain ⟨v, reply, rest, hop, hrest, rfl⟩ := performAll_cons_cases h
    exact performAll_cons hop (ih hrest)

/-- Steps of a halted core change nothing (R80). -/
theorem performAll_steps_halted (bytes : List Byte) {s : State} (halted : s.run = .halted) :
    ∃ replies, performAll (bytes.map .step) s = .next (s, replies) := by
  induction bytes with
  | nil => exact ⟨[], rfl⟩
  | cons r bytes ih =>
    obtain ⟨replies, hrest⟩ := ih
    exact ⟨_, performAll_cons (stepWithByte_halted r s halted) hrest⟩

/-! ## What every step keeps -/

/-- No instruction writes the parameters (R42). -/
theorem exec_cfg {i : Instr} {s t : State} (h : exec i s = .next t) : t.cfg = s.cfg := by
  cases exec_effect h with
  | registers frame _ _ => exact frame.cfg
  | fault | store | index | clear | draw | call | ret | wait => rfl

theorem step_cfg {s t : State} (h : step s = .next t) : t.cfg = s.cfg := by
  obtain ⟨-, rfl⟩ | ⟨x, -, hpoll⟩ | ⟨-, -, hexec⟩ | ⟨-, -, rfl⟩ := step_cases s t h
  · rfl
  · obtain ⟨k, -, rfl⟩ | ⟨-, rfl⟩ := keyWaitPoll_cases x _ t hpoll
    · rfl
    · rfl
  · exact (exec_cfg hexec).trans s.start_cfg
  · rfl

/-- `STEP(r)` writes neither the key latch nor the parameters (R42, R91). -/
theorem stepWithByte_keepsInputs {r : Byte} {s t : State} {reply : Reply}
    (h : stepWithByte r s = .next (t, reply)) : KeepsInputs s t := by
  obtain ⟨u, hu, rfl, -⟩ := stepWithByte_cases h
  obtain ⟨key, -⟩ := stepTouchesNoKeyAndCountsNoTimer _ u hu
  have cfg : u.cfg = s.cfg := step_cfg (s := s.withRand [r]) hu
  exact ⟨key, cfg⟩

/-- A `STEP(r)` that replies with a fault leaves the core halted (R88). -/
theorem stepWithByte_fault_halted {r : Byte} {s t : State} {k : Fault}
    (h : stepWithByte r s = .next (t, .stepFault k)) : t.run = .halted := by
  obtain ⟨u, -, rfl, hreply⟩ := stepWithByte_cases h
  exact stepReply_fault u k hreply.symm

theorem stepWithByte_answers (r : Byte) (s : State) : ∃ t reply, stepWithByte r s = .next (t, reply) := by
  obtain ⟨u, hu⟩ := everyStepAnswersANextState { s with rand := [r] }
  exact ⟨_, _, stepWithByte_next r s u hu⟩

/-! ## The steps of a frame -/

/-- A frame's steps with these bytes lead from the first state to the second, with these replies. -/
inductive FrameRun : List Byte → State → State → List Reply → Prop
  /-- No step is left. -/
  | done (s : State) : FrameRun [] s s []
  /-- The step faults, and the bytes after it are not used. -/
  | fault {r : Byte} {bytes : List Byte} {s t : State} {k : Fault}
      (h : stepWithByte r s = .next (t, .stepFault k)) : FrameRun (r :: bytes) s t [.stepFault k]
  /-- The step does not fault, and the other steps follow. -/
  | step {r : Byte} {bytes : List Byte} {s t u : State} {reply : Reply} {replies : List Reply}
      (h : stepWithByte r s = .next (t, reply)) (unfaulted : ∀ k, reply ≠ .stepFault k)
      (rest : FrameRun bytes t u replies) : FrameRun (r :: bytes) s u (reply :: replies)

/-- The steps of a frame complete (R145). -/
theorem frameSteps_run (bytes : List Byte) (s : State) :
    ∃ t replies, frameSteps bytes s = .next (t, replies) ∧ FrameRun bytes s t replies := by
  induction bytes generalizing s with
  | nil => exact ⟨s, [], rfl, .done s⟩
  | cons r bytes ih =>
    obtain ⟨t, reply, h⟩ := stepWithByte_answers r s
    by_cases hfault : ∃ k, reply = .stepFault k
    · obtain ⟨k, rfl⟩ := hfault
      exact ⟨t, [.stepFault k], by simp [frameSteps, h], .fault h⟩
    · have unfaulted (k : Fault) : reply ≠ .stepFault k := fun hk => hfault ⟨k, hk⟩
      obtain ⟨u, replies, hrest, run⟩ := ih t
      exact ⟨u, reply :: replies, by simp [frameSteps, h, hrest], .step h unfaulted run⟩

section
variable {bytes : List Byte} {s t : State} {replies : List Reply}

theorem FrameRun.keepsInputs (h : FrameRun bytes s t replies) : KeepsInputs s t := by
  induction h with
  | done s => exact ⟨rfl, rfl⟩
  | fault h => exact stepWithByte_keepsInputs h
  | step h _ _ ih =>
    obtain ⟨key, cfg⟩ := stepWithByte_keepsInputs h
    obtain ⟨key', cfg'⟩ := ih
    exact ⟨key'.trans key, cfg'.trans cfg⟩

theorem FrameRun.length_le (h : FrameRun bytes s t replies) : replies.length ≤ bytes.length := by
  induction h with
  | done s => exact Nat.le_refl 0
  | fault h => exact Nat.succ_le_succ (Nat.zero_le _)
  | step _ _ _ ih => exact Nat.succ_le_succ ih

theorem FrameRun.length_of_unfaulted (h : FrameRun bytes s t replies) (unfaulted : ∀ k, Reply.stepFault k ∉ replies) :
    replies.length = bytes.length := by
  induction h with
  | done s => rfl
  | @fault _ _ _ _ k _ => exact absurd (List.mem_singleton_self _) (unfaulted k)
  | step _ _ _ ih => exact congrArg Nat.succ (ih fun k hk => unfaulted k (List.mem_cons_of_mem _ hk))

/-- The steps issued one by one leave the same state, and reply the same if none faults: those that a fault leaves out of
the frame meet a halted core (R80). -/
theorem FrameRun.performAll_steps (h : FrameRun bytes s t replies) :
    ∃ replies', performAll (bytes.map .step) s = .next (t, replies') ∧
      ((∀ k, Reply.stepFault k ∉ replies) → replies' = replies) := by
  induction h with
  | done s => exact ⟨[], rfl, fun _ => rfl⟩
  | @fault _ bytes _ _ k h =>
    obtain ⟨replies', hrest⟩ := performAll_steps_halted bytes (stepWithByte_fault_halted h)
    exact ⟨_, performAll_cons h hrest, fun unfaulted => absurd (List.mem_singleton_self _) (unfaulted k)⟩
  | step h _ _ ih =>
    obtain ⟨replies', hrest, same⟩ := ih
    exact ⟨_, performAll_cons h hrest, fun unfaulted =>
      congrArg (_ :: ·) (same fun k hk => unfaulted k (List.mem_cons_of_mem _ hk))⟩

/-- A fault's reply is followed by what comes after the steps alone (R145). -/
theorem FrameRun.after_fault (h : FrameRun bytes s t replies) {last : Reply} {before after : List Reply} {k : Fault}
    (heq : replies ++ [last] = before ++ .stepFault k :: after) (hlast : ∀ k, last ≠ .stepFault k) :
    after = [last] := by
  induction h generalizing before with
  | done s =>
    cases before with
    | nil => exact absurd (List.cons.inj heq).1 (hlast k)
    | cons b before => simp at heq
  | fault h =>
    cases before with
    | nil => exact (List.cons.inj heq).2.symm
    | cons b before =>
      cases before with
      | nil => exact absurd (List.cons.inj (List.cons.inj heq).2).1 (hlast k)
      | cons b' before => simp at heq
  | step _ unfaulted _ ih =>
    cases before with
    | nil => exact absurd (List.cons.inj heq).1 (unfaulted k)
    | cons b before => exact ih (List.cons.inj heq).2

end

/-! ## The whole frame -/

/-- A frame is its steps from the latch written, then its end (R145). -/
theorem frame_run (keys : BitVec 16) (r : Nat → Byte) (s : State) :
    ∃ t replies, FrameRun (frameBytes s.cfg r) (s.keysWritten keys) t replies ∧
      frame keys r s = .next (t.frameEnded, replies ++ [.pixels t.pixelBits]) := by
  obtain ⟨t, replies, hsteps, run⟩ := frameSteps_run (frameBytes s.cfg r) (s.keysWritten keys)
  exact ⟨t, replies, run, frame_next keys r s t replies hsteps⟩

theorem frameEnded_of_clear {s : State} (h : s.cfg.keyClearAtFrameEnd = true) :
    s.frameEnded = s.ticked.keysCleared := if_pos h

theorem frameEnded_of_keep {s : State} (h : s.cfg.keyClearAtFrameEnd = false) : s.frameEnded = s.ticked :=
  if_neg (by simp [h])

theorem frameEnded_cfg (s : State) : s.frameEnded.cfg = s.cfg := by
  cases h : s.cfg.keyClearAtFrameEnd with
  | true => rw [frameEnded_of_clear h, State.keysCleared_cfg, State.ticked_cfg]
  | false => rw [frameEnded_of_keep h, State.ticked_cfg]

/-- Settles O58: the steps keep the latch and the parameters, so only the end of the frame can clear the latch. -/
theorem frameLeavesNoKeyPressed : Obligations.FrameLeavesNoKeyPressed := by
  intro keys r s
  obtain ⟨t, replies, run, hframe⟩ := frame_run keys r s
  obtain ⟨key, cfg⟩ := run.keepsInputs
  replace cfg : t.cfg = s.cfg := cfg
  refine ⟨_, _, hframe, (frameEnded_cfg t).trans cfg, fun clear => ?_, fun keep => ?_⟩
  · rw [frameEnded_of_clear (cfg ▸ clear)]
    exact keyDown_keysCleared t.ticked
  · rw [frameEnded_of_keep (cfg ▸ keep)]
    exact key

/-- The end of a frame, issued as operations: the read-out, `TICK`, and the latch clear if it is due (R145). -/
theorem performAll_frameEnd (s : State) :
    performAll ([.fbRead, .tick] ++ if s.cfg.keyClearAtFrameEnd then [.keysClear] else []) s =
      .next (s.frameEnded, .pixels s.pixelBits :: if s.cfg.keyClearAtFrameEnd then [.done, .done] else [.done]) := by
  cases h : s.cfg.keyClearAtFrameEnd with
  | true =>
    rw [frameEnded_of_clear h]
    rfl
  | false =>
    rw [frameEnded_of_keep h]
    rfl

/-- Settles O60: the operations are the latch written, the frame's steps and its end, and a frame's replies are its steps'
and then one that is no fault's. -/
theorem frameIsItsOperations : Obligations.FrameIsItsOperations := by
  intro keys r s
  obtain ⟨t, frameReplies, run, hframe⟩ := frame_run keys r s
  obtain ⟨stepReplies, hsteps, same⟩ := run.performAll_steps
  obtain ⟨-, cfg⟩ := run.keepsInputs
  replace cfg : t.cfg = s.cfg := cfg
  simp only [frameBytes, List.map_map, Function.comp_def] at hsteps
  have hend := performAll_frameEnd t
  rw [cfg] at hend
  refine ⟨t.frameEnded,
    .done :: (stepReplies ++ .pixels t.pixelBits :: if s.cfg.keyClearAtFrameEnd then [.done, .done] else [.done]), _, ?_,
    hframe, ?_, fun unfaulted => ?_, fun before after k heq => ?_⟩
  · have hops := performAll_cons (op := .keysWrite keys) rfl (performAll_append hsteps hend)
    simpa using hops
  · simpa using run.length_le
  · replace unfaulted (k : Fault) : Reply.stepFault k ∉ frameReplies :=
      fun hk => unfaulted k (List.mem_append_left _ hk)
    have hlen := run.length_of_unfaulted unfaulted
    exact ⟨by simpa using hlen, by simp [same unfaulted]⟩
  · replace heq : frameReplies ++ [.pixels t.pixelBits] = before ++ .stepFault k :: after := by simpa using heq
    rw [run.after_fault heq nofun, List.length_singleton]

end Sys2Proof.Machine

/-! # Reset, the load and the boot (`70_reset_and_hazards.md` R152 to R158, R164) -/

namespace Sys2Proof.Machine

/-! ## The timers run out -/

/-- Settles O55, by induction on the number of `TICK`s: the first counts each timer down by 1, the others by the rest. -/
theorem delayRunsOutAfterItsTicks : Obligations.DelayRunsOutAfterItsTicks := by
  intro n
  induction n with
  | zero => exact fun s => ⟨s, [], rfl, rfl, rfl, rfl, fun _ => rfl, fun _ => rfl, rfl, rfl, rfl⟩
  | succ n ih =>
    intro s
    obtain ⟨t, replies, hticks, dt, st, kept⟩ := ih s.ticked
    refine ⟨t, .done :: replies, performAll_cons rfl hticks, ?_, ?_, kept⟩
    · rw [dt, State.ticked_dt, countDown_toNat, Nat.sub_sub, Nat.add_comm]
    · rw [st, State.ticked_st, countDown_toNat, Nat.sub_sub, Nat.add_comm]

/-! ## The load -/

theorem programFits_iff (n : Nat) : programFits n = true ↔ n + 0x200 ≤ 4096 := decide_eq_true_iff

/-- A loaded program reads back in order from 0x200 on (R154). -/
theorem loaded_byteAt_inside (s : State) {bytes : List Byte} {j : Nat} (h : j < bytes.length) :
    (s.loaded bytes).byteAt (0x200 + j) = bytes[j] :=
  (Memory.read_writeBytes_inside s.mem 0x200 h).trans (List.getElem_eq_getD 0).symm

/-- Loading a program changes no byte outside its place (R154). -/
theorem loaded_keepsMemoryOutside (s : State) (bytes : List Byte) :
    KeepsMemoryOutside 0x200 bytes.length s (s.loaded bytes) :=
  fun a outside => Memory.read_writeBytes_outside s.mem 0x200 a bytes outside

/-- Settles O53, by `started` and the size of the program. -/
theorem loadResult : Obligations.LoadResult := by
  intro bytes s
  refine ⟨fun notStarted fits => ?_, fun notStarted tooLarge => ?_, fun started => ?_⟩
  · exact ⟨s.loaded bytes, perform_load_fits bytes s notStarted ((programFits_iff _).2 fits),
      fun _ => loaded_byteAt_inside s, loaded_keepsMemoryOutside s bytes, rfl, fun _ => rfl, rfl, rfl, ⟨rfl, rfl⟩,
      fun _ => rfl, ⟨rfl, rfl, rfl⟩, ⟨rfl, rfl⟩, ⟨rfl, rfl⟩⟩
  · have hfits : programFits bytes.length = false := by
      rw [← Bool.not_eq_true, programFits_iff]
      omega
    exact ⟨perform_load_too_large bytes s notStarted hfits, rfl⟩
  · exact if_pos started

/-! ## The reset and the boot -/

/-- Settles O52: `RESET` answers the initial state of its parameters, where the framebuffer is dark and the latch empty. -/
theorem resetSetsEveryComponent : Obligations.ResetSetsEveryComponent := fun s =>
  ⟨s.hostReset, rfl, rfl, rfl, rfl, rfl, rfl, Framebuffer.pixel_dark, fun _ => BitVec.getLsbD_zero, rfl, rfl, rfl, rfl,
    rfl, rfl⟩

/-- Settles O59: `RESET` leaves a running core at 0x200 that `LOAD` may write, and `LOAD` puts the program's first two
bytes there, so the first step fetches them. -/
theorem bootRunsTheFirstWord : Obligations.BootRunsTheFirstWord := by
  intro hi lo rest s fits
  have hload := perform_load_fits (hi :: lo :: rest) s.hostReset rfl ((programFits_iff _).2 fits)
  have hhi := loaded_byteAt_inside s.hostReset (bytes := hi :: lo :: rest) (Nat.zero_lt_succ _)
  have hlo := loaded_byteAt_inside s.hostReset (bytes := hi :: lo :: rest) (Nat.succ_lt_succ (Nat.zero_lt_succ _))
  have inRange : (0x200 : Word).toNat + 1 < 4096 := by decide
  exact ⟨_, performAll_cons (op := .reset) rfl (performAll_cons hload rfl), rfl, step_runs_bytes rfl inRange hhi hlo⟩

end Sys2Proof.Machine
